-- ==== Sys2Proof/Word.lean ====
section
/-! DEFINITION. The widths of the x28-mpx CORE: the 16-bit word (R60), the TSW-bit timestamp (R2, decision D1:
TSW = 32), the two index widths (decision D6) and the lengths the parameter table of 00_scope.md fixes. -/

namespace Sys2Proof

/-- A word of the bus, the content of a queue slot, a timing register, a result of a host operation (R60, R69). -/
abbrev Word := BitVec 16

/-- A value of the microsecond timebase NOW, of PREV_TS and of QT: TSW = 32 bits (R2, decision D1). -/
abbrev Stamp := BitVec 32

/-- A queue index, HEAD or TAIL: 6 bits, every value a legal slot (R14, R15, R44). -/
abbrev Slot := BitVec 6

/-- A host command `op[4:0], arg[15:0]` (R69). -/
abbrev Command := BitVec 21

/-- The number of slots of the queue storage (R13); 63 of them are usable (R95). -/
abbrev slots : Nat := 64

/-- The number of chips of a frame (R67, R124). -/
abbrev chipsPerFrame : Nat := 50

/-- The number of bits assembled, or sent, per word (00_scope.md section 4). -/
abbrev bitsPerWord : Nat := 16

/-- An elapsed time `elapsed(a, b) = (a − b) mod 2^TSW`, as an unsigned number (R6, R102). -/
def elapsed (a b : Stamp) : Nat := (a - b).toNat

end Sys2Proof
end

