-- ==== Sys2Proof/Config.lean ====
section
/-! DEFINITION. What an implementation fixes and what the spec leaves open: the reset values of the four timing
registers (R152 asks that they stand in the configuration), the two enumerations of the host software (R164), and
the FREE VALUES, opaque constants of which nothing in Lean can prove a value (92_eei_decisions.md "Open parameters"). -/

namespace Sys2Proof

/-- The events the dispatcher delivers: eight names, opaque values of an enumeration (R164). -/
inductive Event where
  | alarmArmed | alarmDisarmed | estoy | meVoy
  | sensorZ1 | sensorZ2 | sensorZ3 | sensorZ4
  deriving DecidableEq, Repr

/-- The 21 keys (R164). -/
inductive Key where
  | d0 | d1 | d2 | d3 | d4 | d5 | d6 | d7 | d8 | d9
  | p | pLong | f | fLong
  | zonaIn | zonaOut | modo
  | panic | panicLong | fire | fireLong
  deriving DecidableEq, Repr

namespace Config

/-- BIT_TIME after reset, in microseconds (R27). -/
def bitTimeReset : Word := 1270
/-- ZERO_TIME after reset, in microseconds (R28). -/
def zeroTimeReset : Word := 2000
/-- IDLE_TIME after reset, in microseconds (R29). -/
def idleTimeReset : Word := 5000
/-- CTS_TIME after reset, in microseconds (R30). -/
def ctsTimeReset : Word := 25000

/-- FREE VALUE. NOW0, the timebase at the first tick after reset: "OPEN: any value" (R2, R212, U10). -/
opaque now0 : Stamp

/-- FREE VALUE. The electrical level of the receive pin at tick t, where no scripted input says it: any sequence of
levels (R2, R212, "rx over time" among the open parameters). -/
opaque rxLevel : Nat → Bool

/-- FREE VALUE. MS, the host platform's millisecond counter, when the machine leaves reset (R160, decision D23). -/
opaque ms0 : Nat

/-- FREE VALUE. How far MS moves at tick t, where no scripted input says it: MS is monotonic and bears no stated
relation to NOW (R160, R190, decision D23). -/
opaque msStep : Nat → Nat

/-- FREE VALUE. The contents of BUF at reset, slot by slot: "unspecified" (R13, R211, U9). -/
opaque bufAtReset : Slot → Word

/-- FREE VALUE. The n-th open choice of a run, where no scripted choice says it: whether `poll` takes its next step in this
part of the tick or later (R5, R50, U12, R184), and how many ticks a `yield` lasts (R163, N13). -/
opaque freeChoice : Nat → Nat

/-- FREE VALUE. The rows of the Code to Event table other than the three known ones (R169, U18). -/
opaque otherEvent : Word → Option Event

/-- FREE VALUE. The rows of the Key table other than ZONA_IN: a first word and perhaps a second (R166, U18). -/
opaque otherKeyWords : Key → Word × Option Word

end Config
end Sys2Proof
end

