-- ==== Sys2Proof/Syntax.lean ====
section
/-! DEFINITION. The instructions: one constructor for each row of spec/opcode_table.json. The block executes no stored
program (R35); its "instruction set" is the operation set of 30_encoding.md section 4, the event RX_EDGE, the transmit
symbols and the frame, and the words. -/

namespace Sys2Proof

/-- One constructor for each row of the opcode table. Operand bits that decoding ignores (`x` in a pattern, R69) are not
kept; everything else of an encoding is an operand. -/
inductive Instr where
  /-- `INIT`: bit 1 of the operand is invertTx, bit 0 invertRx (R140). -/
  | init (invertTx invertRx : Bool)
  /-- `Q_PUSH w` (R90). -/
  | qPush (w : Word)
  /-- `Q_READ` (R91). -/
  | qRead
  /-- `Q_EMPTY` (R92). -/
  | qEmpty
  /-- `Q_FULL` (R93). -/
  | qFull
  /-- `PKT_PARITY w` (R80). -/
  | pktParity (w : Word)
  /-- `PKT_ID w` (R81). -/
  | pktId (w : Word)
  /-- `PKT_DATA w` (R82). -/
  | pktData (w : Word)
  /-- `PKT_CHK w` (R83). -/
  | pktChk (w : Word)
  /-- `PKT_VALID w` (R84). -/
  | pktValid (w : Word)
  /-- `TX_SEND w` (R120). -/
  | txSend (w : Word)
  /-- `RD_STATUS` (R143). -/
  | rdStatus
  /-- `RD_CFG` (R142). -/
  | rdCfg
  /-- `RD_BIT_TIME` (R144). -/
  | rdBitTime
  /-- `RD_ZERO_TIME` (R144). -/
  | rdZeroTime
  /-- `RD_IDLE_TIME` (R144). -/
  | rdIdleTime
  /-- `RD_CTS_TIME` (R144). -/
  | rdCtsTime
  /-- `WR_BIT_TIME v` (R145). -/
  | wrBitTime (v : Word)
  /-- `WR_ZERO_TIME v` (R146). -/
  | wrZeroTime (v : Word)
  /-- `WR_IDLE_TIME v` (R148). -/
  | wrIdleTime (v : Word)
  /-- `WR_CTS_TIME v` (R149). -/
  | wrCtsTime (v : Word)
  /-- The event `RX_EDGE`, taken by DEC at a qualifying edge (R103). -/
  | rxEdge
  /-- The start pulse of a frame, `1` (R66). -/
  | txsymStart
  /-- The cell of a bit 0, `100` (R66). -/
  | txsymBit0
  /-- The cell of a bit 1, `110` (R66). -/
  | txsymBit1
  /-- The stop marker of a frame, `1` (R66). -/
  | txsymStop
  /-- The 50-chip frame of the word w (R67). -/
  | txFrame (w : Word)
  /-- A word in the hands of the dispatcher (R60, R161). -/
  | word (w : Word)
  /-- 0x49C1, the Code to Event row of ALARM_ARMED (R169). -/
  | wordAlarmArmed
  /-- 0x1615, the first Code to Event row of SENSOR_Z1 (R169). -/
  | wordSensorZ1A
  /-- 0xB08A, the second Code to Event row of SENSOR_Z1 (R169). -/
  | wordSensorZ1B
  /-- 0x00CF, the first word of the Key table row ZONA_IN (R166). -/
  | wordZonaIn1
  /-- 0x0000, the second word of the Key table row ZONA_IN (R166). -/
  | wordZonaIn2
  deriving DecidableEq, Repr

end Sys2Proof
end

