-- ==== Sys2Proof/WellFormed.lean ====
section
/-! DEFINITION. Which instructions are well formed. The operand types already confine every operand to its encoding's
range; what remains is that a word the opcode table names in a Code to Event row of its own is written as that row. -/

namespace Sys2Proof

/-- The three words that the known rows of the Code to Event table name (R62, R169). -/
def eventWords : List Word := [0x49C1, 0x1615, 0xB08A]

/-- An instruction is well formed unless it is a plain `WORD` whose 16 bits are those of a Code to Event row, which has a
constructor of its own. -/
def Instr.wellFormed : Instr → Bool
  | .word w => !eventWords.contains w
  | .init _ _ | .qPush _ | .qRead | .qEmpty | .qFull => true
  | .pktParity _ | .pktId _ | .pktData _ | .pktChk _ | .pktValid _ => true
  | .txSend _ | .rdStatus | .rdCfg => true
  | .rdBitTime | .rdZeroTime | .rdIdleTime | .rdCtsTime => true
  | .wrBitTime _ | .wrZeroTime _ | .wrIdleTime _ | .wrCtsTime _ => true
  | .rxEdge | .txsymStart | .txsymBit0 | .txsymBit1 | .txsymStop | .txFrame _ => true
  | .wordAlarmArmed | .wordSensorZ1A | .wordSensorZ1B | .wordZonaIn1 | .wordZonaIn2 => true

end Sys2Proof
end

