-- ==== Sys2Proof/Decode.lean ====
section
/-! DEFINITION. The encodings of 30_encoding.md, read and written. The opcode table has five formats, and the same bits can
mean different rows in different formats (`110` is the event RX_EDGE and the cell of a bit 1), so what is decoded is
a `Coded`: the bits together with the format that the place they come from gives them. -/

namespace Sys2Proof

/-- Bits with the format they are read in. -/
inductive Coded where
  /-- HOSTCMD21: a command at the host port (R69). -/
  | command (c : Command)
  /-- EVENT: RXEN, active_rx now, active_rx at the previous tick, in bits 2, 1, 0 (R100). -/
  | event (b : BitVec 3)
  /-- TXSYM of one chip: the first symbol of a frame, or its last (R66, R67). -/
  | symbol1 (last : Bool) (chip : BitVec 1)
  /-- TXSYM of three chips, the first chip in bit 2 (R66). -/
  | symbol3 (chips : BitVec 3)
  /-- TXFRAME50: the first chip in bit 49 (R67). -/
  | frame (chips : BitVec 50)
  /-- WORD16: a word read from the queue, in the hands of the dispatcher (R60, R161). -/
  | word (w : Word)
  /-- TABLEWORD16: a word of the Key table, about to be sent (R165, R166). -/
  | keyWord (w : Word)
  deriving DecidableEq, Repr

/-- Why bits decode to nothing. -/
inductive Reject where
  /-- An operation code of 0x00, 0x0E, 0x0F or 0x18 to 0x1F (R72). -/
  | reservedCode
  /-- The three condition bits are not 1, 1, 0: DEC takes no step (R100). -/
  | noEvent
  /-- The chips are none of the four symbols (R66). -/
  | notASymbol
  /-- The chips are not the frame of any word (R67). -/
  | notAFrame
  deriving DecidableEq, Repr

/-- The operand field `arg[15:0]` of a command (R69). -/
def commandArg (c : Command) : Word := c.extractLsb' 0 16

/-- The operation code `op[4:0]` of a command (R69). -/
def commandOp (c : Command) : BitVec 5 := c.extractLsb' 16 5

/-- The operation map (R70). A code that the map does not list is reserved (R72). -/
def decodeCommand (c : Command) : Except Reject Instr :=
  let arg := commandArg c
  match (commandOp c).toNat with
  | 0x01 => .ok (.init (arg.getLsbD 1) (arg.getLsbD 0))
  | 0x02 => .ok (.qPush arg)
  | 0x03 => .ok .qRead
  | 0x04 => .ok .qEmpty
  | 0x05 => .ok .qFull
  | 0x06 => .ok (.pktParity arg)
  | 0x07 => .ok (.pktId arg)
  | 0x08 => .ok (.pktData arg)
  | 0x09 => .ok (.pktChk arg)
  | 0x0A => .ok (.pktValid arg)
  | 0x0B => .ok (.txSend arg)
  | 0x0C => .ok .rdStatus
  | 0x0D => .ok .rdCfg
  | 0x10 => .ok .rdBitTime
  | 0x11 => .ok .rdZeroTime
  | 0x12 => .ok .rdIdleTime
  | 0x13 => .ok .rdCtsTime
  | 0x14 => .ok (.wrBitTime arg)
  | 0x15 => .ok (.wrZeroTime arg)
  | 0x16 => .ok (.wrIdleTime arg)
  | 0x17 => .ok (.wrCtsTime arg)
  | _ => .error .reservedCode

/-- The event row: `110` and nothing else (R100). -/
def decodeEvent (b : BitVec 3) : Except Reject Instr :=
  if b = 0b110 then .ok .rxEdge else .error .noEvent

/-- A symbol of one chip is active; it is START where it opens the frame and STOP where it closes it (R66). -/
def decodeSymbol1 (last : Bool) (chip : BitVec 1) : Except Reject Instr :=
  if chip = 1 then .ok (if last then .txsymStop else .txsymStart) else .error .notASymbol

/-- A symbol of three chips is the cell of a bit (R66). -/
def decodeSymbol3 (chips : BitVec 3) : Except Reject Instr :=
  if chips = 0b100 then .ok .txsymBit0
  else if chips = 0b110 then .ok .txsymBit1
  else .error .notASymbol

/-- `chip(w, c)`: is chip c of the frame of w active (R67). -/
def chip (w : Word) (c : Nat) : Bool :=
  if c = 0 ∨ c = 49 then true
  else if (c - 1) % 3 = 0 then true
  else if (c - 1) % 3 = 1 then w.getLsbD (15 - (c - 1) / 3)
  else false

/-- The number whose binary digit i, for i < n, is `f i`. -/
def natFrom : Nat → (Nat → Bool) → Nat
  | 0, _ => 0
  | n + 1, f => (if f n then 2 ^ n else 0) + natFrom n f

/-- The n-bit vector whose bit i is `f i`. -/
def bitsFrom (n : Nat) (f : Nat → Bool) : BitVec n := BitVec.ofNat n (natFrom n f)

/-- The 50 chips of the frame of w, the first chip in bit 49 (R67). -/
def frameBits (w : Word) : BitVec 50 :=
  bitsFrom chipsPerFrame fun i => chip w (49 - i)

/-- The word that 50 chips carry: bit 15 − j of the word is chip 2 + 3 j, the middle chip of cell j (R67). -/
def frameWord (f : BitVec 50) : Word :=
  bitsFrom bitsPerWord fun i => f.getLsbD (49 - (2 + 3 * (15 - i)))

/-- A frame is read only if every fixed chip of it is right (R67). -/
def decodeFrame (f : BitVec 50) : Except Reject Instr :=
  if frameBits (frameWord f) = f then .ok (.txFrame (frameWord f)) else .error .notAFrame

/-- A word before the dispatcher: a known row of the Code to Event table, or any other word (R169, R73). -/
def decodeWord (w : Word) : Except Reject Instr :=
  if w = 0x49C1 then .ok .wordAlarmArmed
  else if w = 0x1615 then .ok .wordSensorZ1A
  else if w = 0xB08A then .ok .wordSensorZ1B
  else .ok (.word w)

/-- A word of the Key table: one of the two known words of ZONA_IN, or another, which is a plain `TX_SEND` (R165, R166). -/
def decodeKeyWord (w : Word) : Except Reject Instr :=
  if w = 0x00CF then .ok .wordZonaIn1
  else if w = 0x0000 then .ok .wordZonaIn2
  else .ok (.txSend w)

/-- Decoding, total on any bits of any format. -/
def decode : Coded → Except Reject Instr
  | .command c => decodeCommand c
  | .event b => decodeEvent b
  | .symbol1 last c => decodeSymbol1 last c
  | .symbol3 c => decodeSymbol3 c
  | .frame f => decodeFrame f
  | .word w => decodeWord w
  | .keyWord w => decodeKeyWord w

/-- A command from its code and its operand (R69). -/
def commandOf (op : BitVec 5) (arg : Word) : Command := op ++ arg

/-- The operand of `INIT`: bit 1 invertTx, bit 0 invertRx, the ignored bits 0 (R140). -/
def initArg (invertTx invertRx : Bool) : Word :=
  (0 : BitVec 14) ++ (BitVec.ofBool invertTx ++ BitVec.ofBool invertRx)

/-- Encoding. Operand bits that decoding ignores are written 0. -/
def encode : Instr → Coded
  | .init t r => .command (commandOf 0x01 (initArg t r))
  | .qPush w => .command (commandOf 0x02 w)
  | .qRead => .command (commandOf 0x03 0)
  | .qEmpty => .command (commandOf 0x04 0)
  | .qFull => .command (commandOf 0x05 0)
  | .pktParity w => .command (commandOf 0x06 w)
  | .pktId w => .command (commandOf 0x07 w)
  | .pktData w => .command (commandOf 0x08 w)
  | .pktChk w => .command (commandOf 0x09 w)
  | .pktValid w => .command (commandOf 0x0A w)
  | .txSend w => .command (commandOf 0x0B w)
  | .rdStatus => .command (commandOf 0x0C 0)
  | .rdCfg => .command (commandOf 0x0D 0)
  | .rdBitTime => .command (commandOf 0x10 0)
  | .rdZeroTime => .command (commandOf 0x11 0)
  | .rdIdleTime => .command (commandOf 0x12 0)
  | .rdCtsTime => .command (commandOf 0x13 0)
  | .wrBitTime v => .command (commandOf 0x14 v)
  | .wrZeroTime v => .command (commandOf 0x15 v)
  | .wrIdleTime v => .command (commandOf 0x16 v)
  | .wrCtsTime v => .command (commandOf 0x17 v)
  | .rxEdge => .event 0b110
  | .txsymStart => .symbol1 false 1
  | .txsymBit0 => .symbol3 0b100
  | .txsymBit1 => .symbol3 0b110
  | .txsymStop => .symbol1 true 1
  | .txFrame w => .frame (frameBits w)
  | .word w => .word w
  | .wordAlarmArmed => .word 0x49C1
  | .wordSensorZ1A => .word 0x1615
  | .wordSensorZ1B => .word 0xB08A
  | .wordZonaIn1 => .keyWord 0x00CF
  | .wordZonaIn2 => .keyWord 0x0000

/-- The format in which a row of so many bits (in whole bytes) of the opcode table is read, with the bits w: 21-bit
commands (24 bits), 50-chip frames (56 bits), 16-bit words, and the short patterns (8 bits). Where two rows of one length
have the same bits, the first row of the table is taken: `110` is RX_EDGE, `1` is START. -/
def codedOfTable (nbits w : Nat) : Coded :=
  if nbits ≤ 8 then
    if w = 1 then .symbol1 false 1
    else if w = 4 then .symbol3 0b100
    else .event (BitVec.ofNat 3 w)
  else if nbits ≤ 16 then
    if w = 0x00CF ∨ w = 0 then .keyWord (BitVec.ofNat 16 w) else .word (BitVec.ofNat 16 w)
  else if nbits ≤ 32 then .command (BitVec.ofNat 21 w)
  else .frame (BitVec.ofNat 50 w)

/-- The number of bits that the format of a row of so many bits has; the table's numbering leaves the rest 0. -/
def tableWidth (nbits : Nat) : Nat :=
  if nbits ≤ 8 then 3 else if nbits ≤ 16 then 16 else if nbits ≤ 32 then 21 else 50

/-- What the decoder reads from the bits of a row of the opcode table (the host's question about each row). -/
def decodeTableWord (nbits w : Nat) : Option Instr :=
  if w < 2 ^ tableWidth nbits then (decode (codedOfTable nbits w)).toOption else none

end Sys2Proof
end

