-- ==== Sys2Proof/Machine/State.lean ====
section
/-! DEFINITION. The state of the machine: every register of 10_state.md, the two input ports, the result port, the host
software's state, and the model's own data that says which agent moves next. Plain data throughout. -/

namespace Sys2Proof.Machine

/-- The machine has no fault: the block raises no exception and has no error outcome (R180, "Nothing in the block is
treated as fault", 93_implementation_defined.md). No constructor. -/
inductive Fault where
  deriving DecidableEq, Repr

/-- What the spec refuses (R9): the operation has no meaning and the machine takes no step. -/
inductive Refusal where
  /-- Raised by `exec`'s arm of an instruction that has no meaning yet. Safe: nothing is proved of it. -/
  | notModelled (mnemonic : String)
  /-- Raised by the step that fetches a command with a reserved operation code (R72). Safe: the spec gives it no step. -/
  | undecodable (why : Reject)
  /-- Raised by every host operation but INIT while INITD is 0 (R141). Safe: the spec gives it no step. -/
  | beforeInit
  /-- Raised by INIT while INITD is 1 (R141). Safe: the spec gives it no step. -/
  | secondInit
  /-- Raised by WR_BIT_TIME and WR_ZERO_TIME where the configuration would become ill-formed (R147). Safe: the spec gives
  it no step. -/
  | illFormedConfiguration
  /-- Raised by a `sendKeys` call whose sequence holds a character that is not a digit (R168). Safe: the spec gives it no
  step. -/
  | nonDigit
  /-- Raised by a `poll` call with no event callback registered (U20, R214). Safe: the spec gives it no step. -/
  | noCallback
  deriving DecidableEq, Repr

/-- The transmitter's phase TXPH (R21). -/
inductive TxPhase where
  | idle | ctsWait | emit
  deriving DecidableEq, Repr

/-- The part of the tick that is next (R5). -/
inductive TickPhase where
  /-- The transmitter's transition that is due at this tick. -/
  | transmit
  /-- The drive of the transmit pin at this tick, in phase EMIT. -/
  | drive
  /-- HOST issues what it issues before the edge detector evaluates the tick. -/
  | hostEarly
  /-- The edge detector evaluates the tick, and DEC takes RX_EDGE if the edge qualifies. -/
  | edge
  /-- HOST issues what it issues after the edge detector; then the tick ends. -/
  | hostLate
  deriving DecidableEq, Repr

/-- What HOST can issue: an operation of the block as its command, or a call of the host software's public surface (R74,
R75). -/
inductive HostCall where
  | op (c : Command)
  | poll (timeoutMs : Nat)
  | sendKey (k : Key)
  | sendKeys (digits : List Char)
  | registerCallback
  | registerLogger
  deriving DecidableEq, Repr

/-- One item of HOST's program: a call, issued before or after the tick's edge evaluation (R5), or the wait for the next
tick. -/
inductive HostItem where
  | issue (late : Bool) (call : HostCall)
  | wait
  deriving DecidableEq, Repr

/-- Where the host software stands (R160, R161, R163, R165, R167). `start` and `timeout` are those of the running `poll`. -/
inductive HostMode where
  /-- No call is running: HOST issues its next item. -/
  | free
  /-- `sendKey` or `sendKeys`: the words still to be sent. -/
  | sending (words : List Word)
  /-- `poll`: at the loop's condition. -/
  | pollTest (start timeout : Nat)
  /-- `poll`: at the emptiness check of an iteration. -/
  | pollCheck (start timeout : Nat)
  /-- `poll`: at the read of an iteration. -/
  | pollRead (start timeout : Nat)
  /-- `poll`: a word has been read and its validity is to be tested. -/
  | pollValid (start timeout : Nat) (w : Word)
  /-- `poll`: the word that has been read is to be looked up. -/
  | pollHandle (start timeout : Nat) (w : Word)
  /-- `poll`: the yield between iterations, with the ticks it still lasts. -/
  | pollYield (start timeout ticks : Nat)
  deriving DecidableEq, Repr

/-- What the outside gives at one tick: the level of the receive pin, and how far MS has moved (R2, R190). -/
structure EnvTick where
  rx : Bool
  msStep : Nat
  deriving DecidableEq, Repr

/-- The queue storage: the slots that have been written, with their words, slots strictly rising (R13, R41). A slot that
is not listed has no value. -/
abbrev Memory := List (Nat × Word)

/-- The machine. A field's docstring names the rule of spec/ that gives it; "model's own" marks the fields that are not
the spec's. -/
structure State where
  /-- PREV_TS (R10). -/
  prevTs : Stamp
  /-- ACC (R11). -/
  acc : Word
  /-- CNT (R12). -/
  cnt : BitVec 5
  /-- BUF (R13). -/
  buf : Memory
  /-- HEAD (R14). -/
  head : Slot
  /-- TAIL (R15). -/
  tail : Slot
  /-- RXPREV (R17). -/
  rxprev : Bool
  /-- RXEN (R18). -/
  rxen : Bool
  /-- TXW (R19). -/
  txw : Word
  /-- QT (R20). -/
  qt : Stamp
  /-- TXPH (R21). -/
  txph : TxPhase
  /-- TXK (R22). -/
  txk : BitVec 22
  /-- TXOE (R23). -/
  txoe : Bool
  /-- TXOUT, the level driven while TXOE is 1 (R24, R125). -/
  txout : Bool
  /-- RXACT (R25). -/
  rxact : Bool
  /-- TXACT (R25). -/
  txact : Bool
  /-- INITD (R26). -/
  initd : Bool
  /-- BIT_TIME (R27). -/
  bitTime : Word
  /-- ZERO_TIME (R28). -/
  zeroTime : Word
  /-- IDLE_TIME (R29). -/
  idleTime : Word
  /-- CTS_TIME (R30). -/
  ctsTime : Word
  /-- The input port rx: the level of the receive pin at this tick (R32). -/
  rx : Bool
  /-- The input port NOW: the timebase at this tick (R2, R32, R189). -/
  now : Stamp
  /-- The result port: the result of the last completed host operation (R69, R7). -/
  result : Word
  /-- MS, the host platform's millisecond counter (R160, R190). -/
  ms : Nat
  /-- Host software: an event callback is registered (R162). -/
  callback : Bool
  /-- Host software: a diagnostic logger is registered (R171). -/
  logger : Bool
  /-- Host software: the events delivered to the callback, oldest first (R162). -/
  events : List Event
  /-- Host software: where it stands (R160, R165). -/
  hostMode : HostMode
  /-- What HOST is still to issue (R4). -/
  hostIn : List HostItem
  /-- Model's own: the part of the tick that is next (R5). -/
  tickPhase : TickPhase
  /-- Model's own: ticks since reset. -/
  tick : Nat
  /-- Model's own: the inputs of the coming ticks; free values follow. -/
  envIn : List EnvTick
  /-- Model's own: the outcomes of the coming open choices; free values follow. -/
  choiceIn : List Nat
  /-- Model's own: free choices made. -/
  choices : Nat
  deriving DecidableEq, Repr

/-- The machine right after reset, at its first tick (R210, R211). NOW, rx and MS are open inputs (R212); RXPREV is the
value active_rx has at the first tick (R17), with RXACT 0. The values the spec does not give are those of log entries 7,
8 and 26. -/
def State.reset : State where
  prevTs := 0
  acc := 0
  cnt := 0
  buf := []
  head := 0
  tail := 0
  rxprev := Config.rxLevel 0 == false
  rxen := false
  txw := 0
  qt := 0
  txph := .idle
  txk := 0
  txoe := false
  txout := false
  rxact := false
  txact := false
  initd := false
  bitTime := Config.bitTimeReset
  zeroTime := Config.zeroTimeReset
  idleTime := Config.idleTimeReset
  ctsTime := Config.ctsTimeReset
  rx := Config.rxLevel 0
  now := Config.now0
  result := 0
  ms := Config.ms0
  callback := false
  logger := false
  events := []
  hostMode := .free
  hostIn := []
  tickPhase := .transmit
  tick := 0
  envIn := []
  choiceIn := []
  choices := 0

end Sys2Proof.Machine
end

