-- ==== Sys2Proof/Machine/Operands.lean ====
section
/-! DEFINITION. The fields of a word (R60), the assembly of operands and results (R71) and the line levels. -/

namespace Sys2Proof.Machine

/-- The parity bit of a word, zero-extended (R60, R80). -/
def parityField (w : Word) : Word := (w.extractLsb' 15 1).zeroExtend 16

/-- The id field of a word, zero-extended (R60, R81). -/
def idField (w : Word) : Word := (w.extractLsb' 12 3).zeroExtend 16

/-- The data field of a word, zero-extended (R60, R82). -/
def dataField (w : Word) : Word := (w.extractLsb' 4 8).zeroExtend 16

/-- The checksum field of a word, zero-extended (R60, R83). -/
def checksumField (w : Word) : Word := (w.extractLsb' 0 4).zeroExtend 16

/-- A Boolean result: 0x0001 for true, 0x0000 for false (R71). -/
def boolWord (b : Bool) : Word := if b then 0x0001 else 0x0000

/-- The electrical level of an active or an inactive line whose active level is `act` (R24, R125). -/
def lineLevel (act active : Bool) : Bool := if active then act else !act

/-- The active level that an invert flag selects: inverted is active low (R140, decision D8). -/
def activeLevel (invert : Bool) : Bool := !invert

/-- `active_rx`: the receive line is at its active level at this tick (R32). -/
def activeRx (s : State) : Bool := s.rx == s.rxact

end Sys2Proof.Machine
end

