-- ==== Sys2Proof/Machine/Flags.lean ====
section
/-! DEFINITION. The two flags, the index successor and the count they rest on, the two views, and validity. -/

namespace Sys2Proof.Machine

/-- `next(i)`: the successor of a queue index, in the two-case form the source asks for, on the natural number i + 1
(R43). -/
def nextSlot (i : Slot) : Slot :=
  if i.toNat + 1 = slots then 0 else BitVec.ofNat 6 (i.toNat + 1)

/-- EMPTY (R16). -/
def empty (s : State) : Bool := s.head == s.tail

/-- FULL (R16). -/
def full (s : State) : Bool := nextSlot s.tail == s.head

/-- COUNT, the number of words held (R37). -/
def count (s : State) : Nat := (s.tail - s.head).toNat

/-- `popcount16(w)` (00_scope.md section 6.1). -/
def popcount16 (w : Word) : Nat :=
  ((List.range bitsPerWord).map fun i => (w.getLsbD i).toNat).sum

/-- A word is valid when its population count is even (R61). -/
def validWord (w : Word) : Bool := popcount16 w % 2 == 0

/-- TXBUSY: the transmitter is not IDLE (R31). -/
def txBusy (s : State) : Bool := s.txph != .idle

/-- STATUS: INITD, RXEN, TXBUSY, FULL, EMPTY in bits 4 to 0, zeros above (R31). -/
def statusView (s : State) : Word :=
  (0 : BitVec 11) ++ (BitVec.ofBool s.initd ++ (BitVec.ofBool s.rxen ++
    (BitVec.ofBool (txBusy s) ++ (BitVec.ofBool (full s) ++ BitVec.ofBool (empty s)))))

/-- CFG: TXACT in bit 1, RXACT in bit 0, zeros above (R25, R142). -/
def cfgView (s : State) : Word :=
  (0 : BitVec 14) ++ (BitVec.ofBool s.txact ++ BitVec.ofBool s.rxact)

/-- A configuration is well-formed: BIT_TIME ≥ 1 and ZERO_TIME < 2 × BIT_TIME, computed without overflow (R8). -/
def wellFormedTimes (bitTime zeroTime : Word) : Bool :=
  decide (1 ≤ bitTime.toNat) && decide (zeroTime.toNat < 2 * bitTime.toNat)

end Sys2Proof.Machine
end

