-- ==== Sys2Proof/Machine/Ops.lean ====
section
/-! DEFINITION. The named operations over the queue storage and the registers that the meanings share. The block takes
no exception and returns from none (R180); its one interrupt-like event saves nothing and restores nothing (R185, R186),
so no operation of that kind stands here. -/

namespace Sys2Proof.Machine

/-- The type of every meaning's answer. -/
abbrev Result := Host.Outcome State Fault Refusal

/-- `o` with `k` applied to its next state. -/
def mapNext (k : State → State) : Result → Result
  | .next s => .next (k s)
  | .fault f => .fault f
  | .refused r => .refused r

/-! ### Named updates -/

/-- The result port takes the value an operation returns (R69). -/
def State.answer (s : State) (v : Word) : State := { s with result := v }

/-- The machine goes on with another part of the tick (R5). -/
def State.atPhase (s : State) (p : TickPhase) : State := { s with tickPhase := p }

/-- The host software goes on at another place. -/
def State.inMode (s : State) (m : HostMode) : State := { s with hostMode := m }

/-! ### The queue storage (R13, R40) -/

/-- The word of slot a, if one was ever written there. -/
def Memory.read : Memory → Nat → Option Word
  | [], _ => none
  | (b, w) :: m, a => if a = b then some w else Memory.read m a

/-- Writing a whole slot (R41). -/
def Memory.write : Memory → Nat → Word → Memory
  | [], a, w => [(a, w)]
  | (b, v) :: m, a, w =>
    if a < b then (a, w) :: (b, v) :: m
    else if a = b then (a, w) :: m
    else (b, v) :: Memory.write m a w

/-- Slots strictly rising, from `lo` on, and below 64. -/
def Memory.wfFrom : Nat → Memory → Bool
  | _, [] => true
  | lo, (b, _) :: m => decide (lo ≤ b) && decide (b < slots) && Memory.wfFrom (b + 1) m

/-- The canonical form: slots strictly rising, every slot one of 0 to 63. A listed slot was written; an unlisted slot has
no value, so no entry equals what an unlisted slot holds. -/
def Memory.wf (m : Memory) : Bool := Memory.wfFrom 0 m

/-- `BUF[i]`. The content of a slot that nothing has written is unspecified: a free value (R13, U9). -/
def readSlot (s : State) (i : Slot) : Word := (s.buf.read i.toNat).getD (Config.bufAtReset i)

/-- `Q_PUSH w` as an operation on the queue: the slot first, then TAIL; nothing at all if the queue is full (R90, R48). -/
def pushWord (w : Word) (s : State) : State :=
  if full s then s
  else { s with buf := s.buf.write s.tail.toNat w, tail := nextSlot s.tail }

/-! ### The host port -/

/-- An operation other than INIT while INITD is 0 is refused (R141). -/
def whenInitialised (s : State) (o : Result) : Result :=
  if s.initd then o else .refused .beforeInit

/-- An operation that only returns a value (R46). -/
def answering (s : State) (v : Word) : Result := whenInitialised s (.next (s.answer v))

/-! ### The transmitter (43_transmitter.md) -/

/-- The step at the issue of `TX_SEND w` (R120). -/
def beginSend (w : Word) (s : State) : State :=
  { s with txw := w, qt := s.now, txph := .ctsWait }

/-- Bus-free detection's sample: the receive line seen active restarts the quiet timer (R122). -/
def sampleLine (s : State) : State := { s with qt := if activeRx s then s.now else s.qt }

/-- Bus-free detection's test: CTS_TIME of continuous inactivity has elapsed (R122). -/
def busFree (s : State) : Bool := decide (s.ctsTime.toNat ≤ elapsed s.now s.qt)

/-- Start of emission (R123). -/
def beginEmission (s : State) : State :=
  { s with rxen := false, txoe := true, txk := 0, txph := .emit }

/-- The number of ticks of a frame (R124). -/
def frameTicks (s : State) : Nat := chipsPerFrame * s.bitTime.toNat

/-- TXK counts one more tick of the emission (R126). -/
def advanceTxk (s : State) : State := { s with txk := s.txk + 1 }

/-- End of emission, and completion of `TX_SEND` with result 0 (R127). -/
def endEmission (s : State) : State :=
  { s with txoe := false, rxen := true, txph := .idle, result := 0 }

/-- The chip the emission is in: TXK div BIT_TIME (R125). -/
def chipIndex (s : State) : Nat := s.txk.toNat / s.bitTime.toNat

/-- The level that rule R125 gives the transmit pin at this TXK. -/
def frameLevel (s : State) : Bool := lineLevel s.txact (chip s.txw (chipIndex s))

/-- Which of the three chips of a bit cell the emission is in: a cell begins at chip 1 + 3 j (R67). -/
def symbolPosition (s : State) : Nat := (chipIndex s - 1) % 3

/-- One tick of a chip: the pin's output takes the level of an active or of an inactive chip (R125). -/
def driveChip (active : Bool) (s : State) : State := { s with txout := lineLevel s.txact active }

/-- One tick of a bit cell: the chip of the cell that the emission is in is driven (R66, R125). -/
def driveCell (chips : List Bool) (s : State) : State := driveChip (chips.getD (symbolPosition s) false) s

/-- The transmit pin as ENV sees it: released, or driven at a level (R24). -/
def pin (s : State) : Option Bool := if s.txoe then some s.txout else none

/-! ### Time (R2) -/

/-- The inputs of the next tick: the scripted ones, or free values. -/
def nextEnv (s : State) : EnvTick :=
  match s.envIn with
  | e :: _ => e
  | [] => ⟨Config.rxLevel (s.tick + 1), Config.msStep (s.tick + 1)⟩

/-- The next tick begins: NOW counts one microsecond modulo 2^TSW, ENV presents the level of the receive pin, MS moves on
(R2, R190). -/
def newTick (s : State) : State :=
  { s with
    now := s.now + 1
    rx := (nextEnv s).rx
    ms := s.ms + (nextEnv s).msStep
    tick := s.tick + 1
    envIn := s.envIn.tail
    tickPhase := .transmit }

/-! ### Open choices -/

/-- The outcome of the next open choice: a scripted one, or a free value. -/
def nextChoice (s : State) : Nat :=
  match s.choiceIn with
  | n :: _ => n
  | [] => Config.freeChoice s.choices

/-- The choice has been made. -/
def afterChoice (s : State) : State :=
  match s.choiceIn with
  | _ :: r => { s with choiceIn := r }
  | [] => { s with choices := s.choices + 1 }

end Sys2Proof.Machine
end

