-- ==== Sys2Proof/Machine/Codec.lean ====
section
/-! DEFINITION. The packet codec (40_packet_codec.md): five operations that read no state and write none but the result. -/

namespace Sys2Proof.Machine

/-- `PKT_PARITY w` (R80). -/
def execPktParity (w : Word) (s : State) : Result := answering s (parityField w)

/-- `PKT_ID w` (R81). -/
def execPktId (w : Word) (s : State) : Result := answering s (idField w)

/-- `PKT_DATA w` (R82). -/
def execPktData (w : Word) (s : State) : Result := answering s (dataField w)

/-- `PKT_CHK w` (R83). -/
def execPktChk (w : Word) (s : State) : Result := answering s (checksumField w)

/-- `PKT_VALID w` (R84). -/
def execPktValid (w : Word) (s : State) : Result := answering s (boolWord (validWord w))

end Sys2Proof.Machine
end

