-- ==== Sys2Proof/Machine/Decoder.lean ====
section
/-! DEFINITION. The bit-timing decoder (42_bit_timing_decoder.md): the step RX_EDGE. -/

namespace Sys2Proof.Machine

/-- The elapsed time of an edge at this tick (R102). -/
def edgeElapsed (s : State) : Nat := elapsed s.now s.prevTs

/-- Class IDLE: the interval is longer than IDLE_TIME, strictly (R63). -/
def idleEdge (s : State) : Bool := decide (s.idleTime.toNat < edgeElapsed s)

/-- The bit an interval that is not IDLE carries: 1 if longer than ZERO_TIME, strictly (R63). -/
def edgeBit (s : State) : Bool := decide (s.zeroTime.toNat < edgeElapsed s)

/-- The accumulator with a bit shifted in at bit 0, truncated to 16 bits (R103). -/
def shiftIn (acc : Word) (b : Bool) : Word := acc <<< 1 ||| (BitVec.ofBool b).zeroExtend 16

/-- ACC and CNT cleared (R103). -/
def clearBits (s : State) : State := { s with acc := 0, cnt := 0 }

/-- The bit branch of RX_EDGE: the bit is shifted in, and the 16th bit pushes the word and clears ACC and CNT (R103). -/
def takeBit (b : Bool) (s : State) : State :=
  if s.cnt.toNat + 1 = bitsPerWord then clearBits (pushWord (shiftIn s.acc b) s)
  else { s with acc := shiftIn s.acc b, cnt := s.cnt + 1 }

/-- PREV_TS takes the time of the edge (R103, R107). -/
def stampEdge (now : Stamp) (s : State) : State := { s with prevTs := now }

/-- The whole step: PREV_TS is written in every branch (R103, R107). -/
def rxEdgeStep (s : State) : State :=
  stampEdge s.now (if idleEdge s then clearBits s else takeBit (edgeBit s) s)

/-- `RX_EDGE`: the step itself. That DEC takes it only at a qualifying edge with RXEN = 1 is the condition its three
event bits encode, tested where the step is fetched (R100, R103). -/
def execRxEdge (s : State) : Result := .next (rxEdgeStep s)

end Sys2Proof.Machine
end

