-- ==== Sys2Proof/Machine/HostWords.lean ====
section
/-! DEFINITION. The host software's two tables (45_host_sequences.md) and the meanings of the words that stand in them. -/

namespace Sys2Proof.Machine

/-- A word made valid, so that a free table entry satisfies R170: the parity bit is flipped where the count of ones is
odd. Every valid word is a value of it. -/
def madeValid (w : Word) : Word := if validWord w then w else w ^^^ 0x8000

/-- The Code to Event table: the three known rows, and free ones, every word of which is valid (R169, R170). -/
def eventTable (w : Word) : Option Event :=
  if w = 0x49C1 then some .alarmArmed
  else if w = 0x1615 then some .sensorZ1
  else if w = 0xB08A then some .sensorZ1
  else if validWord w then Config.otherEvent w else none

/-- The Key table: the known row of ZONA_IN, and free ones of one or two valid words (R166, R170). -/
def keyTable (k : Key) : List Word :=
  if k = .zonaIn then [0x00CF, 0x0000]
  else madeValid (Config.otherKeyWords k).1 :: ((Config.otherKeyWords k).2.map madeValid).toList

/-- The digit key that a character denotes (R167). -/
def digitKey : Char → Option Key
  | '0' => some .d0
  | '1' => some .d1
  | '2' => some .d2
  | '3' => some .d3
  | '4' => some .d4
  | '5' => some .d5
  | '6' => some .d6
  | '7' => some .d7
  | '8' => some .d8
  | '9' => some .d9
  | _ => none

/-- The words of a digit sequence, in order; none if a character is not a digit (R167, R168). -/
def digitWords : List Char → Option (List Word)
  | [] => some []
  | ch :: cs =>
    match digitKey ch, digitWords cs with
    | some k, some ws => some (keyTable k ++ ws)
    | _, _ => none

/-- `callback(e)`: the event is delivered (R161, R162). -/
def deliver (e : Event) (s : State) : State := { s with events := s.events ++ [e] }

/-- What an iteration of the dispatcher does with a word it has read: an invalid word is dropped, a recognised one calls
the callback once, an unrecognised one does nothing (R161). DESIGN CHOICE, unsafe (log 32): the event is delivered without
a test of `callback`; the spec does not say what becomes of a recognised word with no callback registered (N13), and a
`poll` does not run then (U20). -/
def dispatchWord (w : Word) (s : State) : State :=
  if validWord w then
    match eventTable w with
    | some e => deliver e s
    | none => s
  else s

/-- A word in the hands of the dispatcher (R60, R161). -/
def execWord (w : Word) (s : State) : Result := .next (dispatchWord w s)

/-- 0x49C1 in the hands of the dispatcher (R169). -/
def execWordAlarmArmed (s : State) : Result := .next (dispatchWord 0x49C1 s)

/-- 0x1615 in the hands of the dispatcher (R169). -/
def execWordSensorZ1A (s : State) : Result := .next (dispatchWord 0x1615 s)

/-- 0xB08A in the hands of the dispatcher (R169). -/
def execWordSensorZ1B (s : State) : Result := .next (dispatchWord 0xB08A s)

/-- The first word of ZONA_IN, sent: `TX_SEND 0x00CF` (R165, R166). -/
def execWordZonaIn1 (s : State) : Result := whenInitialised s (.next (beginSend 0x00CF s))

/-- The second word of ZONA_IN, sent: `TX_SEND 0x0000` (R165, R166). -/
def execWordZonaIn2 (s : State) : Result := whenInitialised s (.next (beginSend 0x0000 s))

end Sys2Proof.Machine
end

