-- ==== Sys2Proof/Machine/Queue.lean ====
section
/-! DEFINITION. The word queue (41_word_queue.md). -/

namespace Sys2Proof.Machine

/-- `Q_PUSH w`, issued as the producer by a test bench; a full queue drops the word (R90). -/
def execQPush (w : Word) (s : State) : Result :=
  whenInitialised s (.next ((pushWord w s).answer 0))

/-- The read as an operation on the queue: 0x0000 and no change if empty; else the slot at HEAD, and HEAD advances
(R91). -/
def readWord (s : State) : State :=
  if empty s then s.answer 0x0000
  else { s with head := nextSlot s.head, result := readSlot s s.head }

/-- `Q_READ` (R91). -/
def execQRead (s : State) : Result := whenInitialised s (.next (readWord s))

/-- `Q_EMPTY` (R92). -/
def execQEmpty (s : State) : Result := answering s (boolWord (empty s))

/-- `Q_FULL` (R93). -/
def execQFull (s : State) : Result := answering s (boolWord (full s))

end Sys2Proof.Machine
end

