-- ==== Sys2Proof/Machine/Timing.lean ====
section
/-! DEFINITION. Initialise, the read-only views and the timing registers (44_timing_registers.md). -/

namespace Sys2Proof.Machine

/-- What INIT writes; RXPREV is taken under the new polarity, so that no edge is reported at this tick (R140). -/
def initialise (invertTx invertRx : Bool) (s : State) : State :=
  { s with
    rxact := activeLevel invertRx
    txact := activeLevel invertTx
    rxprev := s.rx == activeLevel invertRx
    rxen := true
    initd := true
    result := 0 }

/-- `INIT`: once, and first; a second one is refused (R140, R141). -/
def execInit (invertTx invertRx : Bool) (s : State) : Result :=
  if s.initd then .refused .secondInit else .next (initialise invertTx invertRx s)

/-- `RD_CFG` (R142). -/
def execRdCfg (s : State) : Result := answering s (cfgView s)

/-- `RD_STATUS` (R143). -/
def execRdStatus (s : State) : Result := answering s (statusView s)

/-- `RD_BIT_TIME` (R144). -/
def execRdBitTime (s : State) : Result := answering s s.bitTime

/-- `RD_ZERO_TIME` (R144). -/
def execRdZeroTime (s : State) : Result := answering s s.zeroTime

/-- `RD_IDLE_TIME` (R144). -/
def execRdIdleTime (s : State) : Result := answering s s.idleTime

/-- `RD_CTS_TIME` (R144). -/
def execRdCtsTime (s : State) : Result := answering s s.ctsTime

/-- A register write that must keep the configuration well-formed; otherwise it is refused (R147). -/
def keepingForm (bitTime zeroTime : Word) (s' : State) : Result :=
  if wellFormedTimes bitTime zeroTime then .next s' else .refused .illFormedConfiguration

/-- `WR_BIT_TIME v` (R145). -/
def execWrBitTime (v : Word) (s : State) : Result :=
  whenInitialised s (keepingForm v s.zeroTime { s with bitTime := v, result := 0 })

/-- `v < 2 × BIT_TIME` (R146). -/
def zeroTimeFits (v : Word) (s : State) : Bool := decide (v.toNat < 2 * s.bitTime.toNat)

/-- `WR_ZERO_TIME v` (R146). -/
def execWrZeroTime (v : Word) (s : State) : Result :=
  whenInitialised s
    (if zeroTimeFits v s then .next { s with zeroTime := v, result := 0 } else .refused .illFormedConfiguration)

/-- `WR_IDLE_TIME v` (R148). -/
def execWrIdleTime (v : Word) (s : State) : Result :=
  whenInitialised s (.next { s with idleTime := v, result := 0 })

/-- `WR_CTS_TIME v` (R149). -/
def execWrCtsTime (v : Word) (s : State) : Result :=
  whenInitialised s (.next { s with ctsTime := v, result := 0 })

end Sys2Proof.Machine
end

