-- ==== Sys2Proof/Machine/Transmitter.lean ====
section
/-! DEFINITION. The transmitter (43_transmitter.md): the operation TX_SEND, the frame and the symbols of 30_encoding.md
section 3. TX_SEND lasts many ticks; its meaning is the step at its issue, and the per-tick transitions follow in
Machine/Sequencer.lean, where the frame and the symbols are the items the transmitter executes. -/

namespace Sys2Proof.Machine

/-- `TX_SEND w`: the step at the tick of issue. The result 0 is delivered when the operation completes (R120, R127). -/
def execTxSend (w : Word) (s : State) : Result := whenInitialised s (.next (beginSend w s))

/-- The frame of w: its emission starts; chips are then driven tick by tick (R67, R123). -/
def execTxFrame (w : Word) (s : State) : Result := .next (beginEmission { s with txw := w })

/-- One tick of the start pulse, `1` (R66). -/
def execTxsymStart (s : State) : Result := .next (driveChip true s)

/-- One tick of the cell of a bit 0, `100` (R66). -/
def execTxsymBit0 (s : State) : Result := .next (driveCell [true, false, false] s)

/-- One tick of the cell of a bit 1, `110` (R66). -/
def execTxsymBit1 (s : State) : Result := .next (driveCell [true, true, false] s)

/-- One tick of the stop marker, `1` (R66). -/
def execTxsymStop (s : State) : Result := .next (driveChip true s)

end Sys2Proof.Machine
end

