-- ==== Sys2Proof/Machine/Dispatch.lean ====
section
/-! DEFINITION. One arm per constructor of Instr, each one direct call of its meaning. -/

namespace Sys2Proof.Machine

def exec (i : Instr) (s : State) : Host.Outcome State Fault Refusal :=
  match i with
  | .init t r => Sys2Proof.Machine.execInit t r s
  | .qPush w => Sys2Proof.Machine.execQPush w s
  | .qRead => Sys2Proof.Machine.execQRead s
  | .qEmpty => Sys2Proof.Machine.execQEmpty s
  | .qFull => Sys2Proof.Machine.execQFull s
  | .pktParity w => Sys2Proof.Machine.execPktParity w s
  | .pktId w => Sys2Proof.Machine.execPktId w s
  | .pktData w => Sys2Proof.Machine.execPktData w s
  | .pktChk w => Sys2Proof.Machine.execPktChk w s
  | .pktValid w => Sys2Proof.Machine.execPktValid w s
  | .txSend w => Sys2Proof.Machine.execTxSend w s
  | .rdStatus => Sys2Proof.Machine.execRdStatus s
  | .rdCfg => Sys2Proof.Machine.execRdCfg s
  | .rdBitTime => Sys2Proof.Machine.execRdBitTime s
  | .rdZeroTime => Sys2Proof.Machine.execRdZeroTime s
  | .rdIdleTime => Sys2Proof.Machine.execRdIdleTime s
  | .rdCtsTime => Sys2Proof.Machine.execRdCtsTime s
  | .wrBitTime v => Sys2Proof.Machine.execWrBitTime v s
  | .wrZeroTime v => Sys2Proof.Machine.execWrZeroTime v s
  | .wrIdleTime v => Sys2Proof.Machine.execWrIdleTime v s
  | .wrCtsTime v => Sys2Proof.Machine.execWrCtsTime v s
  | .rxEdge => Sys2Proof.Machine.execRxEdge s
  | .txsymStart => Sys2Proof.Machine.execTxsymStart s
  | .txsymBit0 => Sys2Proof.Machine.execTxsymBit0 s
  | .txsymBit1 => Sys2Proof.Machine.execTxsymBit1 s
  | .txsymStop => Sys2Proof.Machine.execTxsymStop s
  | .txFrame w => Sys2Proof.Machine.execTxFrame w s
  | .word w => Sys2Proof.Machine.execWord w s
  | .wordAlarmArmed => Sys2Proof.Machine.execWordAlarmArmed s
  | .wordSensorZ1A => Sys2Proof.Machine.execWordSensorZ1A s
  | .wordSensorZ1B => Sys2Proof.Machine.execWordSensorZ1B s
  | .wordZonaIn1 => Sys2Proof.Machine.execWordZonaIn1 s
  | .wordZonaIn2 => Sys2Proof.Machine.execWordZonaIn2 s

end Sys2Proof.Machine
end

