-- ==== Sys2Proof/Machine/Sequencer.lean ====
section
/-! DEFINITION. What moves next. Each part of a tick (R5) forms the bits its agent is to act on, in their format, decodes
them and executes the instruction they decode to; what no instruction does (time, bus-free detection, the end of an
emission, the host software's own control flow) stands here as the rules give it. -/

namespace Sys2Proof.Machine

/-- Fetch, decode, execute: the instruction that the bits decode to, then `k`. Bits that decode to nothing are refused by
name (R72). -/
def runCoded (c : Coded) (k : State → State) (s : State) : Result :=
  match decode c with
  | .ok i => mapNext k (exec i s)
  | .error e => .refused (.undecodable e)

/-! ### The transmitter's part of the tick -/

/-- CTS_WAIT: sample the line, then test the quiet timer; if the bus is free, the frame of TXW is executed at this tick
(R122, R123). -/
def waitTurn (s : State) : Result :=
  if busFree (sampleLine s) then
    runCoded (.frame (frameBits s.txw)) (fun s' => s'.atPhase .drive) (sampleLine s)
  else .next ((sampleLine s).atPhase .edge)

/-- EMIT, at every tick after the first: TXK advances, and the emission ends where TXK reaches 50 × BIT_TIME (R126,
R127). -/
def emitTurn (s : State) : Result :=
  if (advanceTxk s).txk.toNat = frameTicks s then .next ((endEmission (advanceTxk s)).atPhase .hostEarly)
  else .next ((advanceTxk s).atPhase .drive)

/-- The transmitter's transition that is due at this tick (R5, R135). -/
def transmitTurn (s : State) : Result :=
  match s.txph with
  | .idle => .next (s.atPhase .hostEarly)
  | .ctsWait => waitTurn s
  | .emit => emitTurn s

/-- The symbol of the frame of w that chip c belongs to: START, one of the sixteen cells, STOP (R66, R67). -/
def symbolAt (w : Word) (c : Nat) : Coded :=
  if c = 0 then .symbol1 false (BitVec.ofBool (chip w 0))
  else if c = 49 then .symbol1 true (BitVec.ofBool (chip w 49))
  else
    let first := 1 + 3 * ((c - 1) / 3)
    .symbol3 (BitVec.ofBool (chip w first) ++ (BitVec.ofBool (chip w (first + 1)) ++ BitVec.ofBool (chip w (first + 2))))

/-- The pin is driven: one tick of the symbol that the emission is in (R125). -/
def driveTurn (s : State) : Result :=
  if s.txph = .emit then runCoded (symbolAt s.txw (chipIndex s)) (fun s' => s'.atPhase .edge) s
  else .next (s.atPhase .edge)

/-! ### The edge detector's part of the tick -/

/-- The three condition bits of the event: RXEN, active_rx now, active_rx at the previous tick (R100). -/
def eventBits (s : State) : BitVec 3 :=
  BitVec.ofBool s.rxen ++ (BitVec.ofBool (activeRx s) ++ BitVec.ofBool s.rxprev)

/-- The edge detector has evaluated the tick: RXPREV takes active_rx, whatever RXEN is (R17). -/
def afterEdge (s : State) : State := { s with rxprev := activeRx s, tickPhase := .hostLate }

/-- The edge detector: at a qualifying edge with RXEN = 1 DEC takes the step, otherwise the edge, if any, is lost (R18,
R100, R109). -/
def edgeTurn (s : State) : Result :=
  match decode (.event (eventBits s)) with
  | .ok i => mapNext afterEdge (exec i s)
  | .error _ => .next (afterEdge s)

/-! ### HOST's parts of the tick -/

/-- HOST issues nothing more in this part of the tick: on to the edge detector, or to the next tick. -/
def passTurn (s : State) : State :=
  if s.tickPhase = .hostEarly then s.atPhase .edge else newTick s

/-- After a host operation: a TX_SEND that was issued is evaluated by bus-free detection in this same tick (R120). -/
def settle (s : State) : State :=
  if s.txph = .ctsWait then s.atPhase .transmit else s

/-- INIT and TX_SEND are issued in the first part of the tick (R5). -/
def mustBeEarly : HostCall → Bool
  | .op c =>
    match decode (.command c) with
    | .ok (.init _ _) => true
    | .ok (.txSend _) => true
    | _ => false
  | _ => false

/-- The part of the tick in which an item is issued (R5). -/
def issuePhase (late : Bool) (call : HostCall) : TickPhase :=
  if late && !mustBeEarly call then .hostLate else .hostEarly

/-- HOST issues a call. `poll` begins by reading MS (R160); `sendKey` and `sendKeys` begin with all their words still to
be sent (R165, R167). -/
def hostCall (call : HostCall) (s : State) : Result :=
  match call with
  | .op c => runCoded (.command c) settle s
  | .poll t => if s.callback then .next (s.inMode (.pollTest s.ms t)) else .refused .noCallback
  | .sendKey k => .next (s.inMode (.sending (keyTable k)))
  | .sendKeys cs =>
    match digitWords cs with
    | some ws => .next (s.inMode (.sending ws))
    | none => .refused .nonDigit
  | .registerCallback => .next { s with callback := true }
  | .registerLogger => .next { s with logger := true }

/-- No call is running: HOST issues its next item if this is its part of the tick (R4, R5). -/
def freeTurn (s : State) : Result :=
  match s.hostIn with
  | [] => .next (passTurn s)
  | .wait :: rest =>
    if s.tickPhase = .hostEarly then .next (passTurn s) else .next (newTick { s with hostIn := rest })
  | .issue late call :: rest =>
    if s.tickPhase = issuePhase late call then hostCall call { s with hostIn := rest } else .next (passTurn s)

/-- `sendKey` and `sendKeys`: one TX_SEND after the other. The two words of one key follow each other as the example of R165
has it, the second issued at the tick at which the first completes. DESIGN CHOICE, unsafe (log 33): in `sendKeys` the first
word of the next key is issued at the tick at which the last word of the key before completes, too; R167 gives the order of
the keys and no time between them, and R127 lets HOST issue at that tick or later. -/
def sendingTurn (words : List Word) (s : State) : Result :=
  match words with
  | [] => .next (s.inMode .free)
  | w :: rest =>
    if s.tickPhase = .hostEarly then runCoded (.keyWord w) settle (s.inMode (.sending rest))
    else .next (passTurn s)

/-- A step of `poll` and the time before it. An RX_EDGE may fall between any two steps of HOST (R184 (a)), and no rule
says how much time lies between two steps of `poll` (R4 lets HOST issue several in one tick, and does not make it). DESIGN
CHOICE, safe (log 16): in each of HOST's parts of a tick an open choice lets `poll` take its step now or pass, so that any
number of edges and of ticks may lie between two of its steps. -/
def pacedTurn (body : State → Result) (s : State) : Result :=
  if nextChoice s % 2 = 1 then .next (passTurn (afterChoice s)) else body (afterChoice s)

/-- An iteration is over: `poll` yields for as long as the host's scheduler likes (R163). -/
def toYield (start timeout : Nat) (s : State) : State :=
  (afterChoice s).inMode (.pollYield start timeout (nextChoice s))

/-- The loop's condition: within the timeout, strictly, or the queue not empty (R160). -/
def pollTestTurn (start timeout : Nat) (s : State) : Result :=
  if s.ms - start < timeout then .next (s.inMode (.pollCheck start timeout))
  else runCoded (encode .qEmpty)
    (fun s' => s'.inMode (if s'.result = 0 then .pollCheck start timeout else .free)) s

/-- The iteration's emptiness check (R161). -/
def pollCheckTurn (start timeout : Nat) (s : State) : Result :=
  runCoded (encode .qEmpty)
    (fun s' => if s'.result = 0 then s'.inMode (.pollRead start timeout) else toYield start timeout s') s

/-- The iteration's read (R161). -/
def pollReadTurn (start timeout : Nat) (s : State) : Result :=
  runCoded (encode .qRead) (fun s' => s'.inMode (.pollValid start timeout s'.result)) s

/-- The iteration's test of the word it has read: an invalid one is dropped (R161). -/
def pollValidTurn (start timeout : Nat) (w : Word) (s : State) : Result :=
  runCoded (encode (.pktValid w))
    (fun s' => if s'.result = 0 then toYield start timeout s' else s'.inMode (.pollHandle start timeout w)) s

/-- The iteration's handling of the valid word it has read (R161). -/
def pollHandleTurn (start timeout : Nat) (w : Word) (s : State) : Result :=
  runCoded (.word w) (toYield start timeout) s

/-- The yield between iterations: time passes, then the loop's condition is tested again (R163). -/
def pollYieldTurn (start timeout ticks : Nat) (s : State) : Result :=
  match ticks with
  | 0 => .next (s.inMode (.pollTest start timeout))
  | n + 1 =>
    if s.tickPhase = .hostEarly then .next (passTurn s)
    else .next (passTurn (s.inMode (.pollYield start timeout n)))

/-- HOST's part of the tick: nothing while it is blocked by a transmission (R4), else what its software does next. The
times of HOST's own operations are data of its program; `sendKey` and `sendKeys` issue their next word as soon as the one
before has completed (R165; between the keys of `sendKeys` log 33); the times of the steps of `poll` are open choices (log
16). -/
def hostTurn (s : State) : Result :=
  if s.txph = .idle then
    match s.hostMode with
    | .free => freeTurn s
    | .sending ws => sendingTurn ws s
    | .pollTest a t => pacedTurn (pollTestTurn a t) s
    | .pollCheck a t => pacedTurn (pollCheckTurn a t) s
    | .pollRead a t => pacedTurn (pollReadTurn a t) s
    | .pollValid a t w => pacedTurn (pollValidTurn a t w) s
    | .pollHandle a t w => pacedTurn (pollHandleTurn a t w) s
    | .pollYield a t n => pollYieldTurn a t n s
  else .next (passTurn s)

/-! ### Where the next step fetches -/

/-- The state in which the next step reads the bits of a row of the opcode table: a command is HOST's next item; a word is
in the dispatcher's hands, which takes its step at once, or in `sendKey`'s; RX_EDGE's three bits are the condition of the
edge detector; a frame is the one whose bus-free wait has just ended; a symbol is the one the emission is in. -/
def placeWord (s : State) (nbits w : Nat) : State :=
  match codedOfTable nbits w with
  | .command c =>
    { s with tickPhase := .hostEarly, txph := .idle, hostMode := .free, hostIn := .issue false (.op c) :: s.hostIn }
  | .word v =>
    { s with tickPhase := .hostEarly, txph := .idle, hostMode := .pollHandle s.ms 0 v, choiceIn := 0 :: s.choiceIn }
  | .keyWord v => { s with tickPhase := .hostEarly, txph := .idle, hostMode := .sending [v] }
  | .event b =>
    { s with
      tickPhase := .edge
      rxen := b.getLsbD 2
      rx := if b.getLsbD 1 then s.rxact else !s.rxact
      rxprev := b.getLsbD 0 }
  | .frame f =>
    { s with tickPhase := .transmit, txph := .ctsWait, txw := frameWord f, rx := !s.rxact,
             now := s.ctsTime.zeroExtend 32, qt := 0 }
  | .symbol1 last _ =>
    { s with tickPhase := .drive, txph := .emit, txk := if last then s.bitTime.zeroExtend 22 * 49 else 0 }
  | .symbol3 b =>
    { s with tickPhase := .drive, txph := .emit, txk := s.bitTime.zeroExtend 22,
             txw := if b.getLsbD 1 then 0xFFFF else 0x0000 }

/-- One atomic step of whichever agent is next (R3, R5). -/
def turn (s : State) : Result :=
  match s.tickPhase with
  | .transmit => transmitTurn s
  | .drive => driveTurn s
  | .hostEarly => hostTurn s
  | .edge => edgeTurn s
  | .hostLate => hostTurn s

end Sys2Proof.Machine
end

