-- ==== Sys2Proof/Safety.lean ====
section
/-! DEFINITION. What the claims call a good state, a run, and the sequences of operations and of edges they speak of. -/

namespace Sys2Proof.Machine

/-! ### Good states -/

/-- Between steps CNT is in 0 to 15 and ACC holds CNT bits (R12, R36). -/
abbrev DecoderInv (s : State) : Prop := s.cnt.toNat ≤ 15 ∧ s.acc.toNat < 2 ^ s.cnt.toNat

/-- The configuration is well-formed (R8, R147). -/
abbrev ConfigInv (s : State) : Prop := 1 ≤ s.bitTime.toNat ∧ s.zeroTime.toNat < 2 * s.bitTime.toNat

/-- The pin is an output exactly in EMIT (R23); the decoder path is on exactly when initialised and not in EMIT (R18,
R182); before INIT nothing is sent (R141); in EMIT the frame is not yet over (R125, R126). -/
abbrev TransmitInv (s : State) : Prop :=
  (s.txoe = true ↔ s.txph = .emit) ∧
  (s.rxen = true ↔ s.initd = true ∧ s.txph ≠ .emit) ∧
  (s.initd = false → s.txph = .idle) ∧
  (s.txph = .emit → s.txk.toNat < chipsPerFrame * s.bitTime.toNat)

/-- Once the pin has been driven at a tick of EMIT, its level is the one rule R125 gives. -/
abbrev PinInv (s : State) : Prop := s.txph = .emit → s.tickPhase ≠ .drive → s.txout = frameLevel s

/-- The pin is driven in EMIT only, and HOST has its first turn of a tick only when it is free (R4, R5). -/
abbrev TurnInv (s : State) : Prop :=
  (s.tickPhase = .drive → s.txph = .emit) ∧ (s.tickPhase = .hostEarly → s.txph = .idle)

/-- The storage is in canonical form, and every slot between HEAD and TAIL has been written (R13). -/
abbrev QueueInv (s : State) : Prop :=
  s.buf.wf = true ∧ ∀ k, k < count s → (s.buf.read (s.head + BitVec.ofNat 6 k).toNat).isSome = true

/-- A `poll` is running (R160). -/
def polling : HostMode → Bool
  | .free => false
  | .sending _ => false
  | .pollTest _ _ => true
  | .pollCheck _ _ => true
  | .pollRead _ _ => true
  | .pollValid _ _ _ => true
  | .pollHandle _ _ _ => true
  | .pollYield _ _ _ => true

/-- A `poll` runs only with a callback registered (R214). -/
abbrev HostInv (s : State) : Prop := polling s.hostMode = true → s.callback = true

/-- A good state: one that the rules allow between two steps. -/
abbrev Inv (s : State) : Prop :=
  DecoderInv s ∧ ConfigInv s ∧ TransmitInv s ∧ PinInv s ∧ TurnInv s ∧ QueueInv s ∧ HostInv s

/-! ### The waveform -/

/-- The frame of w as a string of symbols: START `1`, a cell `1 b 0` for each bit from bit 15 down, STOP `1` (R66, R67). -/
def frameString (w : Word) : List Bool :=
  [true] ++ ((List.range 16).flatMap fun j => [true, w.getLsbD (15 - j), false]) ++ [true]

/-- The number of ones of a word, as the size of the set of its one bits. -/
def onesOf (w : Word) : Nat := (Finset.univ.filter fun i : Fin 16 => w.getLsbD i = true).card

/-! ### Runs -/

/-- The next tick of `s`, in which ENV gives `e`: NOW counts one modulo 2^32, the line and MS are as given, and the tick
begins with the transmitter's part (R2). -/
def ticked (s : State) (e : EnvTick) : State :=
  { s with now := BitVec.ofNat 32 ((s.now.toNat + 1) % 2 ^ 32), rx := e.rx, ms := s.ms + e.msStep, tick := s.tick + 1,
           envIn := s.envIn.tail, tickPhase := .transmit }

/-- The ten digit characters and the keys they denote (R167). -/
def digitPairs : List (Char × Key) :=
  [('0', .d0), ('1', .d1), ('2', .d2), ('3', .d3), ('4', .d4), ('5', .d5), ('6', .d6), ('7', .d7), ('8', .d8), ('9', .d9)]

/-- `n` steps, stopping at a refusal. -/
def run : Nat → State → Result
  | 0, s => .next s
  | n + 1, s =>
    match step s with
    | .next t => run n t
    | .fault f => .fault f
    | .refused r => .refused r

/-- Instructions executed one after the other, with the result port's value after each. -/
def execAll : List Instr → State → Option (List Word × State)
  | [], s => some ([], s)
  | i :: is, s =>
    match exec i s with
    | .next t =>
      match execAll is t with
      | some (rs, u) => some (t.result :: rs, u)
      | none => none
    | .fault _ => none
    | .refused _ => none

/-- RX_EDGE steps at edges that follow one another after the given intervals (R102). -/
def edges : List Stamp → State → Option State
  | [], s => some s
  | e :: es, s =>
    match exec .rxEdge { s with now := s.prevTs + e } with
    | .next t => edges es t
    | .fault _ => none
    | .refused _ => none

/-- The interval e has the class of the bit b: not IDLE, and longer than ZERO_TIME exactly for a 1 (R63). -/
def bitInterval (s : State) (b : Bool) (e : Stamp) : Bool :=
  decide (e.toNat ≤ s.idleTime.toNat) && (b == decide (s.zeroTime.toNat < e.toNat))

/-- The intervals of the sixteen bits of w, most significant bit first (R64, R105). -/
def wordIntervals (s : State) (w : Word) (es : List Stamp) : Bool :=
  decide (es.length = 16) &&
    (List.range 16).all fun k => bitInterval s (w.getLsbD (15 - k)) (es.getD k 0)

end Sys2Proof.Machine
end

