-- ==== Sys2Proof/Certificates/Slice0/Obligations.lean ====
section
/-! DEFINITION. The statements for the provers. Each docstring names the rule of spec/ it formalises. Results are written
in the rules' own arithmetic, not with the model's helper functions; a next state written as an update of `s` states
the frame whole: every field that is not named is unchanged. -/

open Sys2Proof Sys2Proof.Machine

/-! ### Packet codec -/

/-- R80, R81, R82, R83: encodings and results of the four field extractions. -/
def Obligations.PacketFieldsAreExtracted : Prop :=
  ∀ (w : Word) (s : State),
    (decode (.command (0b00110#5 ++ w)) = .ok (.pktParity w) ∧
     decode (.command (0b00111#5 ++ w)) = .ok (.pktId w) ∧
     decode (.command (0b01000#5 ++ w)) = .ok (.pktData w) ∧
     decode (.command (0b01001#5 ++ w)) = .ok (.pktChk w)) ∧
    (s.initd = true →
      exec (.pktParity w) s = .next { s with result := BitVec.ofNat 16 (w.toNat / 2 ^ 15) } ∧
      exec (.pktId w) s = .next { s with result := BitVec.ofNat 16 (w.toNat / 2 ^ 12 % 8) } ∧
      exec (.pktData w) s = .next { s with result := BitVec.ofNat 16 (w.toNat / 2 ^ 4 % 256) } ∧
      exec (.pktChk w) s = .next { s with result := BitVec.ofNat 16 (w.toNat % 16) })

/-- R84: PKT_VALID returns 1 exactly for an even number of ones, over all 16 bits. -/
def Obligations.PktValidIsEvenParity : Prop :=
  ∀ (w : Word) (s : State),
    decode (.command (0b01010#5 ++ w)) = .ok (.pktValid w) ∧
    (s.initd = true →
      exec (.pktValid w) s = .next { s with result := if onesOf w % 2 = 0 then 0x0001 else 0x0000 })

/-- R85: flipping a set of bits flips the validity exactly when the set has an odd number of bits; one bit is such a set. -/
def Obligations.FlippedBitsChangeValidity : Prop :=
  ∀ (w m : Word) (s : State), s.initd = true →
    ∃ a b : State, exec (.pktValid w) s = .next a ∧ exec (.pktValid (w ^^^ m)) s = .next b ∧
      (onesOf m % 2 = 0 → b.result = a.result) ∧
      (onesOf m % 2 = 1 → b.result = 1 - a.result) ∧
      (∀ i, i < 16 → m = 1#16 <<< i → b.result = 1 - a.result)

/-- R86: the four fields rebuild the word. -/
def Obligations.FieldsRebuildTheWord : Prop :=
  ∀ (w : Word) (s : State), s.initd = true →
    ∃ p i d c : State,
      exec (.pktParity w) s = .next p ∧ exec (.pktId w) s = .next i ∧
      exec (.pktData w) s = .next d ∧ exec (.pktChk w) s = .next c ∧
      w.toNat = p.result.toNat * 2 ^ 15 + i.result.toNat * 2 ^ 12 + d.result.toNat * 2 ^ 4 + c.result.toNat ∧
      p.result.toNat < 2 ∧ i.result.toNat < 8 ∧ d.result.toNat < 256 ∧ c.result.toNat < 16

/-! ### Word queue -/

/-- R43: the two-case successor, and that it is the successor modulo 64. -/
def Obligations.NextSlotIsTwoCase : Prop :=
  ∀ i : Slot, (nextSlot i).toNat = (if i.toNat + 1 = 64 then 0 else i.toNat + 1) ∧
    (nextSlot i).toNat = (i.toNat + 1) % 64

/-- R90: Q_PUSH drops the word on a full queue; otherwise it stores it at TAIL and TAIL advances; every other slot reads
as before. -/
def Obligations.QPushStoresAtTailOrDrops : Prop :=
  ∀ (w : Word) (s : State),
    decode (.command (0b00010#5 ++ w)) = .ok (.qPush w) ∧
    (s.initd = true →
      ((s.tail.toNat + 1) % 64 = s.head.toNat → exec (.qPush w) s = .next { s with result := 0 }) ∧
      ((s.tail.toNat + 1) % 64 ≠ s.head.toNat →
        ∃ m : Memory,
          exec (.qPush w) s =
            .next { s with buf := m, tail := BitVec.ofNat 6 ((s.tail.toNat + 1) % 64), result := 0 } ∧
          m.read s.tail.toNat = some w ∧
          (∀ a, a ≠ s.tail.toNat → m.read a = s.buf.read a)))

/-- R91: Q_READ returns 0x0000 and changes nothing on an empty queue; otherwise it returns the slot at HEAD and HEAD
advances; the slot is not cleared. What an unwritten slot returns is not stated. -/
def Obligations.QReadTakesTheSlotAtHead : Prop :=
  ∀ (a : Word) (s : State),
    decode (.command (0b00011#5 ++ a)) = .ok .qRead ∧
    (s.initd = true →
      (s.head = s.tail → exec .qRead s = .next { s with result := 0 }) ∧
      (s.head ≠ s.tail →
        ∃ v : Word,
          exec .qRead s = .next { s with head := BitVec.ofNat 6 ((s.head.toNat + 1) % 64), result := v } ∧
          (∀ w, s.buf.read s.head.toNat = some w → v = w)))

/-- R92, R93: the two predicates over the indices, and nothing else changes. -/
def Obligations.QueuePredicatesReadTheIndices : Prop :=
  ∀ (a : Word) (s : State),
    decode (.command (0b00100#5 ++ a)) = .ok .qEmpty ∧
    decode (.command (0b00101#5 ++ a)) = .ok .qFull ∧
    (s.initd = true →
      exec .qEmpty s = .next { s with result := if s.head = s.tail then 0x0001 else 0x0000 } ∧
      exec .qFull s =
        .next { s with result := if (s.tail.toNat + 1) % 64 = s.head.toNat then 0x0001 else 0x0000 })

/-- R94: how the four operations move COUNT, and where EMPTY and FULL stand on it. -/
def Obligations.QueueOperationsMoveCount : Prop :=
  ∀ (w : Word) (s : State), s.initd = true →
    count s ≤ 63 ∧ (empty s = true ↔ count s = 0) ∧ (full s = true ↔ count s = 63) ∧
    (∃ t, exec (.qPush w) s = .next t ∧ count t = if count s = 63 then 63 else count s + 1) ∧
    (∃ t, exec .qRead s = .next t ∧ count t = count s - 1)

/-- R95: from an empty queue, pushes of any words, then Q_FULL, then reads: the first 63 words come back in order, FULL is
1 exactly when 63 or more were pushed, and the rest were dropped. -/
def Obligations.QueueIsFifoAndOverflowIsLossy : Prop :=
  ∀ (ws : List Word) (s : State), s.initd = true → empty s = true →
    ∃ t : State,
      execAll (ws.map Instr.qPush ++ [.qFull] ++ List.replicate (min ws.length 63) .qRead) s =
        some (List.replicate ws.length 0 ++ [if 63 ≤ ws.length then 0x0001 else 0x0000] ++ ws.take 63, t) ∧
      empty t = true

/-- R96: the producer's step never empties a queue that was seen not empty, and the word at HEAD stays in its place. -/
def Obligations.SeenNotEmptyStaysNotEmpty : Prop :=
  ∀ s : State, empty s = false →
    ∃ t, exec .rxEdge s = .next t ∧ empty t = false ∧ t.head = s.head ∧
      t.buf.read s.head.toNat = s.buf.read s.head.toNat

/-! ### Bit-timing decoder -/

/-- R111: the elapsed time is modular, so a gap of G ticks is seen as G mod 2^32 and one wrap of NOW is harmless (TSW = 32,
log 1). -/
def Obligations.ElapsedTimeIsModular : Prop :=
  ∀ (p : Stamp) (g : Nat), elapsed (p + BitVec.ofNat 32 g) p = g % 2 ^ 32

/-- R103: the step RX_EDGE in each of its branches, for CNT in 0 to 15 (R12). -/
def Obligations.RxEdgeClassifiesAndShifts : Prop :=
  ∀ s : State, s.cnt.toNat ≤ 15 →
    let e := (2 ^ 32 + s.now.toNat - s.prevTs.toNat) % 2 ^ 32
    let a := BitVec.ofNat 16 (2 * s.acc.toNat + if s.zeroTime.toNat < e then 1 else 0)
    (s.idleTime.toNat < e → exec .rxEdge s = .next { s with prevTs := s.now, acc := 0, cnt := 0 }) ∧
    (e ≤ s.idleTime.toNat → s.cnt.toNat < 15 →
      exec .rxEdge s = .next { s with prevTs := s.now, acc := a, cnt := BitVec.ofNat 5 (s.cnt.toNat + 1) }) ∧
    (e ≤ s.idleTime.toNat → s.cnt.toNat = 15 → (s.tail.toNat + 1) % 64 = s.head.toNat →
      exec .rxEdge s = .next { s with prevTs := s.now, acc := 0, cnt := 0 }) ∧
    (e ≤ s.idleTime.toNat → s.cnt.toNat = 15 → (s.tail.toNat + 1) % 64 ≠ s.head.toNat →
      ∃ m : Memory,
        exec .rxEdge s = .next { s with prevTs := s.now, acc := 0, cnt := 0, buf := m,
                                        tail := BitVec.ofNat 6 ((s.tail.toNat + 1) % 64) } ∧
        m.read s.tail.toNat = some a ∧ (∀ x, x ≠ s.tail.toNat → m.read x = s.buf.read x))

/-- R64, R105, R114: an edge of class IDLE and sixteen edges whose intervals have the classes of the bits of w, bit 15
first, push exactly w (or drop it, if the queue is full) and leave ACC and CNT clear. -/
def Obligations.SeventeenEdgesDeliverTheWord : Prop :=
  ∀ (s : State) (w : Word) (gap : Stamp) (es : List Stamp),
    s.idleTime.toNat < gap.toNat → wordIntervals s w es = true →
    ∃ (n : Stamp) (m : Memory) (q : Slot),
      edges (gap :: es) s = some { s with now := n, prevTs := n, acc := 0, cnt := 0, buf := m, tail := q } ∧
      (full s = true → m = s.buf ∧ q = s.tail) ∧
      (full s = false → q = nextSlot s.tail ∧ m.read s.tail.toNat = some w ∧
        (∀ x, x ≠ s.tail.toNat → m.read x = s.buf.read x))

/-- R18, R100, R101, R109: at the edge detector's part of a tick RX_EDGE is executed exactly for RXEN = 1, active now,
inactive before; any other tick changes nothing but RXPREV, and the model goes on with the tick (its parts are the
model's layout of R5, log 6). -/
def Obligations.EdgeDetectorGatesTheDecoder : Prop :=
  ∀ s : State, s.tickPhase = .edge →
    (s.rxen = true ∧ s.rx = s.rxact ∧ s.rxprev = false →
      ∃ t, exec .rxEdge s = .next t ∧ step s = .next { t with rxprev := true, tickPhase := .hostLate }) ∧
    (¬ (s.rxen = true ∧ s.rx = s.rxact ∧ s.rxprev = false) →
      step s = .next { s with rxprev := s.rx == s.rxact, tickPhase := .hostLate })

/-! ### Transmitter -/

/-- R66, R67: the chips of a frame are START, the sixteen cells `1 b 0` from bit 15 down, STOP; there are 50, chip c in bit
49 − c of the frame's bits; and the frame's bits decode to the frame of that word. -/
def Obligations.FrameIsStartCellsStop : Prop :=
  ∀ w : Word, (frameString w).length = 50 ∧
    (∀ c, c < 50 → (frameString w)[c]? = some (chip w c)) ∧
    (∀ c, c < 50 → (frameBits w).getLsbD (49 - c) = chip w c) ∧
    decode (.frame (frameBits w)) = .ok (.txFrame w)

/-- R134, R68: the transitions to the active level inside a frame are at chips 4, 7, 10, ... 49, whatever the word. -/
def Obligations.RisingChipsDoNotDependOnTheWord : Prop :=
  ∀ (w : Word) (c : Nat), 0 < c → c < 50 →
    ((chip w c = true ∧ chip w (c - 1) = false) ↔ (4 ≤ c ∧ c % 3 = 1))

/-- R120: the step at the issue of TX_SEND. -/
def Obligations.TxSendStartsTheWait : Prop :=
  ∀ (w : Word) (s : State),
    decode (.command (0b01011#5 ++ w)) = .ok (.txSend w) ∧
    (s.initd = true → exec (.txSend w) s = .next { s with txw := w, qt := s.now, txph := .ctsWait })

/-- R122, R123: one tick of bus-free detection. The sample comes first; emission starts in the tick in which CTS_TIME of
inactivity is reached. -/
def Obligations.BusFreeDetectionTick : Prop :=
  ∀ s : State, s.tickPhase = .transmit → s.txph = .ctsWait →
    let q := if s.rx = s.rxact then s.now else s.qt
    let quiet := (2 ^ 32 + s.now.toNat - q.toNat) % 2 ^ 32
    (s.ctsTime.toNat ≤ quiet →
      step s = .next { s with qt := q, rxen := false, txoe := true, txk := 0, txph := .emit, tickPhase := .drive }) ∧
    (quiet < s.ctsTime.toNat → step s = .next { s with qt := q, tickPhase := .edge })

/-- R67, R123: executing a frame starts the emission of its word; that this is the meaning of the table row is the
model's choice (log 12). -/
def Obligations.FrameStartsEmission : Prop :=
  ∀ (w : Word) (s : State),
    exec (.txFrame w) s = .next { s with txw := w, rxen := false, txoe := true, txk := 0, txph := .emit }

/-- R66 (log 11): one tick of each symbol; the level of a chip is TXACT for an active one and its complement for an
inactive one, and a cell's chip is the one TXK stands in. -/
def Obligations.SymbolsDriveThePin : Prop :=
  ∀ s : State,
    let pos := (s.txk.toNat / s.bitTime.toNat - 1) % 3
    exec .txsymStart s = .next { s with txout := s.txact } ∧
    exec .txsymStop s = .next { s with txout := s.txact } ∧
    exec .txsymBit0 s = .next { s with txout := if pos = 0 then s.txact else !s.txact } ∧
    exec .txsymBit1 s = .next { s with txout := if pos < 2 then s.txact else !s.txact }

/-- R125: the level driven at a tick of EMIT is the level of chip TXK div BIT_TIME of the frame of TXW. -/
def Obligations.EmissionDrivesTheChip : Prop :=
  ∀ s : State, s.tickPhase = .drive → s.txph = .emit → s.txk.toNat < 50 * s.bitTime.toNat →
    ∃ a : Bool, (frameString s.txw)[s.txk.toNat / s.bitTime.toNat]? = some a ∧
      step s = .next { s with txout := if a then s.txact else !s.txact, tickPhase := .edge }

/-- R126, R127: at every tick of EMIT after the first TXK advances; at 50 × BIT_TIME the emission ends, the pin is
released, the decoder path is on again and TX_SEND completes with result 0. -/
def Obligations.EmissionAdvancesAndEnds : Prop :=
  ∀ s : State, s.tickPhase = .transmit → s.txph = .emit → s.txk.toNat < 50 * s.bitTime.toNat →
    (s.txk.toNat + 1 < 50 * s.bitTime.toNat →
      step s = .next { s with txk := BitVec.ofNat 22 (s.txk.toNat + 1), tickPhase := .drive }) ∧
    (s.txk.toNat + 1 = 50 * s.bitTime.toNat →
      step s = .next { s with txk := BitVec.ofNat 22 (s.txk.toNat + 1), txoe := false, rxen := true, txph := .idle,
                              result := 0, tickPhase := .hostEarly })

/-- R124, R128, R138: from the first drive of an emission the machine drives chip k div BIT_TIME at tick T0 + k for every
k below 50 × BIT_TIME, and releases the pin at T0 + 50 × BIT_TIME with HOST free again; the decoder's registers and the
queue are untouched throughout. Four steps of the model make such a tick (log 6). -/
def Obligations.EmissionRunsTheWholeFrame : Prop :=
  ∀ s : State, Inv s → s.tickPhase = .drive → s.txph = .emit → s.txk = 0 →
    (∀ k, k < 50 * s.bitTime.toNat →
      ∃ (t : State) (a : Bool), run (4 * k + 1) s = .next t ∧ t.tick = s.tick + k ∧ t.txph = .emit ∧
        (frameString s.txw)[k / s.bitTime.toNat]? = some a ∧
        pin t = some (if a then s.txact else !s.txact) ∧ t.rxen = false ∧
        t.prevTs = s.prevTs ∧ t.acc = s.acc ∧ t.cnt = s.cnt ∧ t.buf = s.buf ∧ t.head = s.head ∧ t.tail = s.tail) ∧
    (∃ t : State, run (4 * (50 * s.bitTime.toNat)) s = .next t ∧ t.tick = s.tick + 50 * s.bitTime.toNat ∧
        t.txph = .idle ∧ pin t = none ∧ t.rxen = true ∧ t.result = 0 ∧ t.tickPhase = .hostEarly ∧
        t.prevTs = s.prevTs ∧ t.acc = s.acc ∧ t.cnt = s.cnt ∧ t.buf = s.buf ∧ t.head = s.head ∧ t.tail = s.tail)

/-- R133 (a), R128: on a silent bus, scripted for at least CTS_TIME ticks, emission starts exactly CTS_TIME ticks after the
issue of TX_SEND. Three steps of the model make a waiting tick (log 6). -/
def Obligations.SilentBusStartsAfterCtsTime : Prop :=
  ∀ s : State, s.tickPhase = .transmit → s.txph = .ctsWait → s.qt = s.now → s.rx ≠ s.rxact →
    s.ctsTime.toNat ≤ s.envIn.length → (∀ e ∈ s.envIn, e.rx ≠ s.rxact) →
    ∃ t : State, run (3 * s.ctsTime.toNat + 1) s = .next t ∧ t.tick = s.tick + s.ctsTime.toNat ∧
      t.txph = .emit ∧ t.txk = 0 ∧ t.txoe = true ∧ t.rxen = false ∧ t.txw = s.txw ∧ t.tickPhase = .drive

/-- R135: the only changes of TXPH that any step makes. -/
def Obligations.PhaseChangesAreThreeKinds : Prop :=
  ∀ s t : State, step s = .next t → t.txph ≠ s.txph →
    (s.txph = .idle ∧ t.txph = .ctsWait ∧ t.qt = s.now ∧ t.tickPhase = .transmit) ∨
    (s.txph = .ctsWait ∧ t.txph = .emit ∧ s.tickPhase = .transmit ∧ s.ctsTime.toNat ≤ elapsed s.now t.qt) ∨
    (s.txph = .emit ∧ t.txph = .idle ∧ s.tickPhase = .transmit ∧ t.txk.toNat = 50 * s.bitTime.toNat)

/-- R138: the transmitter's steps do not touch the decoder's registers, the queue, the configuration or the host
software. -/
def Obligations.TransmitterLeavesTheReceiveSide : Prop :=
  ∀ s t : State, (s.tickPhase = .transmit ∨ s.tickPhase = .drive) → step s = .next t →
    t.prevTs = s.prevTs ∧ t.acc = s.acc ∧ t.cnt = s.cnt ∧ t.buf = s.buf ∧ t.head = s.head ∧ t.tail = s.tail ∧
    t.rxprev = s.rxprev ∧ t.rxact = s.rxact ∧ t.txact = s.txact ∧ t.initd = s.initd ∧
    t.bitTime = s.bitTime ∧ t.zeroTime = s.zeroTime ∧ t.idleTime = s.idleTime ∧ t.ctsTime = s.ctsTime ∧
    t.hostIn = s.hostIn ∧ t.hostMode = s.hostMode ∧ t.events = s.events ∧ t.callback = s.callback ∧
    t.logger = s.logger ∧ t.choiceIn = s.choiceIn ∧ t.choices = s.choices ∧ t.now = s.now ∧ t.ms = s.ms ∧ t.rx = s.rx

/-- R23, R24: in a good state the pin is released exactly outside EMIT, and in EMIT, once driven, it carries the level of
its chip. -/
def Obligations.PinIsReleasedOutsideEmit : Prop :=
  ∀ s : State, Inv s →
    (pin s = none ↔ s.txph ≠ .emit) ∧
    (s.txph = .emit → s.tickPhase ≠ .drive →
      ∃ a : Bool, (frameString s.txw)[s.txk.toNat / s.bitTime.toNat]? = some a ∧
        pin s = some (if a then s.txact else !s.txact))

/-! ### Initialise and timing registers -/

/-- R140: what INIT reads and writes. -/
def Obligations.InitSetsPolarityAndEnables : Prop :=
  ∀ (a : Word) (t r : Bool) (s : State),
    decode (.command (0b00001#5 ++ a)) = .ok (.init (a.getLsbD 1) (a.getLsbD 0)) ∧
    (s.initd = false →
      exec (.init t r) s = .next { s with rxact := !r, txact := !t, rxprev := s.rx == !r, rxen := true, initd := true,
                                          result := 0 })

/-- R141: before INIT every other host operation is refused, and INIT is refused once it has been done. -/
def Obligations.InitIsFirstAndOnce : Prop :=
  ∀ (c : Command) (i : Instr) (s : State), decode (.command c) = .ok i →
    ((∃ t r, i = .init t r) → s.initd = true → exec i s = .refused .secondInit) ∧
    ((∀ t r, i ≠ .init t r) → s.initd = false → exec i s = .refused .beforeInit)

/-- R142: RD_CFG returns TXACT in bit 1 and RXACT in bit 0. -/
def Obligations.RdCfgReturnsThePolarities : Prop :=
  ∀ (a : Word) (s : State),
    decode (.command (0b01101#5 ++ a)) = .ok .rdCfg ∧
    (s.initd = true →
      exec .rdCfg s = .next { s with result := BitVec.ofNat 16 (2 * s.txact.toNat + s.rxact.toNat) })

/-- R143, R31: RD_STATUS returns the five bits, and for a free, initialised host in a good state one of three values. -/
def Obligations.RdStatusReturnsTheView : Prop :=
  ∀ (a : Word) (s : State),
    decode (.command (0b01100#5 ++ a)) = .ok .rdStatus ∧
    (s.initd = true →
      ∃ v : Word, exec .rdStatus s = .next { s with result := v } ∧
        v = BitVec.ofNat 16 (16 * s.initd.toNat + 8 * s.rxen.toNat + 4 * (if s.txph = .idle then 0 else 1) +
              2 * (if (s.tail.toNat + 1) % 64 = s.head.toNat then 1 else 0) + (if s.head = s.tail then 1 else 0)) ∧
        (Inv s → s.txph = .idle →
          v = if count s = 0 then 0x0019 else if count s = 63 then 0x001A else 0x0018))

/-- R144: the four timing reads. -/
def Obligations.TimingReadsReturnTheRegisters : Prop :=
  ∀ (a : Word) (s : State),
    decode (.command (0b10000#5 ++ a)) = .ok .rdBitTime ∧
    decode (.command (0b10001#5 ++ a)) = .ok .rdZeroTime ∧
    decode (.command (0b10010#5 ++ a)) = .ok .rdIdleTime ∧
    decode (.command (0b10011#5 ++ a)) = .ok .rdCtsTime ∧
    (s.initd = true →
      exec .rdBitTime s = .next { s with result := s.bitTime } ∧
      exec .rdZeroTime s = .next { s with result := s.zeroTime } ∧
      exec .rdIdleTime s = .next { s with result := s.idleTime } ∧
      exec .rdCtsTime s = .next { s with result := s.ctsTime }) ∧
    (State.reset.bitTime = 1270 ∧ State.reset.zeroTime = 2000 ∧ State.reset.idleTime = 5000 ∧
      State.reset.ctsTime = 25000)

/-- R145, R147: WR_BIT_TIME writes where the configuration stays well-formed and is refused elsewhere. -/
def Obligations.WrBitTimeKeepsTheConstraint : Prop :=
  ∀ (v : Word) (s : State),
    decode (.command (0b10100#5 ++ v)) = .ok (.wrBitTime v) ∧
    (s.initd = true → 1 ≤ v.toNat → s.zeroTime.toNat < 2 * v.toNat →
      exec (.wrBitTime v) s = .next { s with bitTime := v, result := 0 }) ∧
    (s.initd = true → ¬ (1 ≤ v.toNat ∧ s.zeroTime.toNat < 2 * v.toNat) →
      exec (.wrBitTime v) s = .refused .illFormedConfiguration)

/-- R146, R147: WR_ZERO_TIME writes below 2 × BIT_TIME and is refused elsewhere. -/
def Obligations.WrZeroTimeKeepsTheConstraint : Prop :=
  ∀ (v : Word) (s : State),
    decode (.command (0b10101#5 ++ v)) = .ok (.wrZeroTime v) ∧
    (s.initd = true → v.toNat < 2 * s.bitTime.toNat →
      exec (.wrZeroTime v) s = .next { s with zeroTime := v, result := 0 }) ∧
    (s.initd = true → 2 * s.bitTime.toNat ≤ v.toNat →
      exec (.wrZeroTime v) s = .refused .illFormedConfiguration)

/-- R148, R149: WR_IDLE_TIME and WR_CTS_TIME accept every value. -/
def Obligations.WrIdleAndCtsTimeAcceptEveryValue : Prop :=
  ∀ (v : Word) (s : State),
    decode (.command (0b10110#5 ++ v)) = .ok (.wrIdleTime v) ∧
    decode (.command (0b10111#5 ++ v)) = .ok (.wrCtsTime v) ∧
    (s.initd = true →
      exec (.wrIdleTime v) s = .next { s with idleTime := v, result := 0 } ∧
      exec (.wrCtsTime v) s = .next { s with ctsTime := v, result := 0 })

/-- R147, R8: no instruction leads from a well-formed configuration to an ill-formed one. -/
def Obligations.ConfigurationStaysWellFormed : Prop :=
  ∀ (i : Instr) (s t : State), ConfigInv s → exec i s = .next t → ConfigInv t

/-! ### Encodings -/

/-- R72: exactly the codes 0x00, 0x0E, 0x0F and 0x18 to 0x1F decode to nothing, and a step that fetches one is refused. -/
def Obligations.ReservedCodesAreRefused : Prop :=
  ∀ c : Command,
    (decode (.command c) = .error .reservedCode ↔
      (c.toNat / 2 ^ 16 = 0x00 ∨ c.toNat / 2 ^ 16 = 0x0E ∨ c.toNat / 2 ^ 16 = 0x0F ∨ 0x18 ≤ c.toNat / 2 ^ 16)) ∧
    (∀ (s : State) (late : Bool) (rest : List HostItem), decode (.command c) = .error .reservedCode →
      s.tickPhase = (if late then .hostLate else .hostEarly) → s.txph = .idle → s.hostMode = .free →
      s.hostIn = .issue late (.op c) :: rest → step s = .refused (.undecodable .reservedCode))

/-- 30_encoding.md: every well-formed instruction's encoding decodes to it, every operand at every value. -/
def Obligations.DecodeInvertsEncode : Prop :=
  ∀ i : Instr, i.wellFormed = true → decode (encode i) = .ok i

/-- 30_encoding.md, 95_test_vectors.md: words written out from the encodings decode to the instructions they stand for. -/
def Obligations.WrittenOutWordsDecode : Prop :=
  decode (.command 0b000010000000000000010) = .ok (.init true false) ∧
  decode (.command 0b000100100100111000001) = .ok (.qPush 0x49C1) ∧
  decode (.command 0b010110000000011001111) = .ok (.txSend 0x00CF) ∧
  decode (.command 0b101000000010100010100) = .ok (.wrBitTime 1300) ∧
  decode (.event 0b110) = .ok .rxEdge ∧
  decode (.symbol3 0b110) = .ok .txsymBit1 ∧
  decode (.frame 0b11001001001001001001001001101101001001101101101101) = .ok (.txFrame 0x00CF) ∧
  decode (.word 0b0100100111000001) = .ok .wordAlarmArmed ∧
  decode (.keyWord 0b0000000011001111) = .ok .wordZonaIn1

/-! ### The step -/

/-- R4, R5: HOST's next command, due in the first of its two parts of a tick, is decoded and executed; the item is taken
from its program, and a TX_SEND is evaluated by bus-free detection in the same tick. An INIT or TX_SEND is due there
however its item is marked. The program is a list in the state (log 3, 18). -/
def Obligations.StepRunsTheHostCommand : Prop :=
  ∀ (s : State) (late : Bool) (c : Command) (i : Instr) (rest : List HostItem),
    s.tickPhase = .hostEarly → s.txph = .idle → s.hostMode = .free → s.hostIn = .issue late (.op c) :: rest →
    decode (.command c) = .ok i → (late = true → (∃ a b, i = .init a b) ∨ ∃ w, i = .txSend w) →
    (∀ t, exec i { s with hostIn := rest } = .next t →
      step s = .next (if t.txph = .ctsWait then { t with tickPhase := .transmit } else t)) ∧
    (∀ r, exec i { s with hostIn := rest } = .refused r → step s = .refused r)

/-- R5, R50: a command scheduled after the edge detector waits in the first of HOST's parts of the tick and is executed in
the second; INIT and TX_SEND, which belong to the first, then wait for the next tick (log 5, 18). -/
def Obligations.StepRunsTheLateHostCommand : Prop :=
  ∀ (s : State) (c : Command) (i : Instr) (rest : List HostItem),
    s.txph = .idle → s.hostMode = .free → s.hostIn = .issue true (.op c) :: rest → decode (.command c) = .ok i →
    ((∀ a b, i ≠ .init a b) → (∀ w, i ≠ .txSend w) →
      (s.tickPhase = .hostLate →
        (∀ t, exec i { s with hostIn := rest } = .next t → step s = .next t) ∧
        (∀ r, exec i { s with hostIn := rest } = .refused r → step s = .refused r)) ∧
      (s.tickPhase = .hostEarly → step s = .next { s with tickPhase := .edge })) ∧
    (((∃ a b, i = .init a b) ∨ ∃ w, i = .txSend w) → s.tickPhase = .hostLate →
      step s = .next (ticked s (nextEnv s)))

/-- R122, R125, R161, R165: the transmitter's frame and symbols and the host software's words are decoded from the bits
their agent holds and executed, in the model's layout of the tick and of the host software (log 6, 11 to 14,
16, 33). -/
def Obligations.StepRunsTheOtherFormats : Prop :=
  (∀ (s : State) (i : Instr), s.tickPhase = .drive → s.txph = .emit →
    decode (symbolAt s.txw (chipIndex s)) = .ok i →
    ∃ t, exec i s = .next t ∧ step s = .next { t with tickPhase := .edge }) ∧
  (∀ (s : State) (i : Instr), s.tickPhase = .transmit → s.txph = .ctsWait → busFree (sampleLine s) = true →
    decode (.frame (frameBits s.txw)) = .ok i →
    ∃ t, exec i (sampleLine s) = .next t ∧ step s = .next { t with tickPhase := .drive }) ∧
  (∀ (s : State) (i : Instr) (a b : Nat) (w : Word), (s.tickPhase = .hostEarly ∨ s.tickPhase = .hostLate) →
    s.txph = .idle → s.hostMode = .pollHandle a b w → nextChoice s % 2 = 0 → decode (.word w) = .ok i →
    ∃ t, exec i (afterChoice s) = .next t ∧
      step s = .next { afterChoice t with hostMode := .pollYield a b (nextChoice t) }) ∧
  (∀ (s : State) (i : Instr) (w : Word) (ws : List Word), s.tickPhase = .hostEarly → s.txph = .idle →
    s.hostMode = .sending (w :: ws) → s.initd = true → decode (.keyWord w) = .ok i →
    ∃ t, exec i { s with hostMode := .sending ws } = .next t ∧ t.txw = w ∧ t.txph = .ctsWait ∧
      step s = .next { t with tickPhase := .transmit })

/-- R4: while a transmission is in progress HOST issues nothing; its parts of the tick only let the tick go on. -/
def Obligations.HostIsBlockedDuringTransmission : Prop :=
  ∀ s : State, s.txph ≠ .idle →
    (s.tickPhase = .hostEarly → step s = .next { s with tickPhase := .edge }) ∧
    (s.tickPhase = .hostLate → step s = .next (ticked s (nextEnv s)))

/-- R2: where HOST has nothing more to issue in a tick the next tick begins: NOW counts one modulo 2^32 and ENV presents the
next level; nothing of the block changes. The script of the line is the model's (log 2). -/
def Obligations.TimeAdvancesByOneTick : Prop :=
  ∀ s : State, s.tickPhase = .hostLate → s.hostMode = .free →
    (s.hostIn = [] ∨ ∃ call rest, s.hostIn = .issue false call :: rest) →
    ∃ (e : EnvTick),
      step s = .next { s with now := BitVec.ofNat 32 ((s.now.toNat + 1) % 2 ^ 32), rx := e.rx, ms := s.ms + e.msStep,
                              tick := s.tick + 1, envIn := s.envIn.tail, tickPhase := .transmit } ∧
      (∀ d ds, s.envIn = d :: ds → e = d)

/-! ### Rules about the whole machine -/

/-- R10, R11, R12: PREV_TS, ACC and CNT are written by RX_EDGE only, and by no step outside the edge detector's part of a
tick. -/
def Obligations.DecoderRegistersHaveOneWriter : Prop :=
  (∀ (i : Instr) (s t : State), i ≠ .rxEdge → exec i s = .next t →
    t.prevTs = s.prevTs ∧ t.acc = s.acc ∧ t.cnt = s.cnt) ∧
  (∀ s t : State, s.tickPhase ≠ .edge → step s = .next t →
    t.prevTs = s.prevTs ∧ t.acc = s.acc ∧ t.cnt = s.cnt)

/-- R14, R15, R47: HEAD is written by Q_READ only; TAIL and the slots by RX_EDGE and Q_PUSH only. -/
def Obligations.QueueIndicesHaveOneWriter : Prop :=
  ∀ (i : Instr) (s t : State), exec i s = .next t →
    (t.head ≠ s.head → i = .qRead) ∧
    ((t.tail ≠ s.tail ∨ t.buf ≠ s.buf) → i = .rxEdge ∨ ∃ w, i = .qPush w)

/-- R25, R26, R27, R28, R29, R30: the polarities are written by INIT only, each timing register by its write only, and
no step clears INITD. -/
def Obligations.ConfigurationHasOneWriter : Prop :=
  (∀ (i : Instr) (s t : State), exec i s = .next t →
    ((t.rxact ≠ s.rxact ∨ t.txact ≠ s.txact ∨ t.initd ≠ s.initd) → ∃ a b, i = .init a b) ∧
    (t.bitTime ≠ s.bitTime → ∃ v, i = .wrBitTime v) ∧
    (t.zeroTime ≠ s.zeroTime → ∃ v, i = .wrZeroTime v) ∧
    (t.idleTime ≠ s.idleTime → ∃ v, i = .wrIdleTime v) ∧
    (t.ctsTime ≠ s.ctsTime → ∃ v, i = .wrCtsTime v)) ∧
  (∀ s t : State, step s = .next t → s.initd = true → t.initd = true ∧ t.rxact = s.rxact ∧ t.txact = s.txact)

/-- R9, R180: a step goes on, or it is one of the refusals the rules name, of what a free HOST issues: an operation other
than INIT before INIT (R141), a reserved code (R72), a second INIT (R141), an ill-forming write (R147), a `sendKeys` with a
character that is no digit (R168), a `poll` with no callback (U20, log 31). -/
def Obligations.StepsGoOnOrAreRefusedByRule : Prop :=
  ∀ s : State, (∃ t, step s = .next t) ∨
    ∃ r, step s = .refused r ∧ s.txph = .idle ∧ (s.tickPhase = .hostEarly ∨ s.tickPhase = .hostLate) ∧
      ((r = .beforeInit ∧ s.initd = false ∧
          (s.hostMode = .free → ∃ late c rest i, s.hostIn = .issue late (.op c) :: rest ∧
            decode (.command c) = .ok i ∧ ∀ a b, i ≠ .init a b)) ∨
        (s.hostMode = .free ∧ ∃ late call rest, s.hostIn = .issue late call :: rest ∧
          ((r = .undecodable .reservedCode ∧ ∃ c, call = .op c ∧ decode (.command c) = .error .reservedCode) ∨
           (r = .secondInit ∧ s.initd = true ∧ ∃ c a b, call = .op c ∧ decode (.command c) = .ok (.init a b)) ∨
           (r = .illFormedConfiguration ∧ s.initd = true ∧ ∃ c v, call = .op c ∧
             ((decode (.command c) = .ok (.wrBitTime v) ∧ ¬ (1 ≤ v.toNat ∧ s.zeroTime.toNat < 2 * v.toNat)) ∨
              (decode (.command c) = .ok (.wrZeroTime v) ∧ 2 * s.bitTime.toNat ≤ v.toNat))) ∨
           (r = .nonDigit ∧ ∃ cs, call = .sendKeys cs ∧ ∃ ch ∈ cs, ¬ ('0' ≤ ch ∧ ch ≤ '9')) ∨
           (r = .noCallback ∧ s.callback = false ∧ ∃ n, call = .poll n))))

/-- R9, R4: outside HOST's parts of a tick (log 6) no step is refused: time, the transmitter and the decoder always go on. -/
def Obligations.OnlyTheHostIsRefused : Prop :=
  ∀ s : State, s.tickPhase ≠ .hostEarly → s.tickPhase ≠ .hostLate → ∃ t, step s = .next t

/-! ### Invariants -/

/-- R211: the machine after reset, in the fields whose value the spec gives. -/
def Obligations.ResetIsTheRulesTable : Prop :=
  let s := State.reset
  s.prevTs = 0 ∧ s.acc = 0 ∧ s.cnt = 0 ∧ s.head = 0 ∧ s.tail = 0 ∧ empty s = true ∧ full s = false ∧
  s.rxprev = activeRx s ∧ s.rxen = false ∧ s.txw = 0 ∧ s.qt = 0 ∧ s.txph = .idle ∧ s.txk = 0 ∧ s.txoe = false ∧
  s.rxact = false ∧ s.txact = false ∧ s.initd = false ∧
  s.bitTime = 1270 ∧ s.zeroTime = 2000 ∧ s.idleTime = 5000 ∧ s.ctsTime = 25000 ∧ statusView s = 0x0001 ∧
  (∀ a, s.buf.read a = none)

/-- R36, R8, R23, R13: the machine after reset is a good state. -/
def Obligations.ResetIsGood : Prop := Inv State.reset

/-- R36, R8, R18, R23, R125, R13: every step leads from a good state to a good state. -/
def Obligations.EveryStepKeepsGoodStates : Prop :=
  ∀ s t : State, Inv s → step s = .next t → Inv t

/-! ### Host software -/

/-- R161, R162, and the model's choice of the meaning of the table row WORD (log 13, 14), with or without a callback (log
32): what the dispatcher does with a word it has read: an invalid one is dropped, a valid one is looked up, and the event
of its row, if it has one, is delivered once, after those delivered before. -/
def Obligations.DispatcherHandlesAWord : Prop :=
  ∀ (w : Word) (s : State),
    (onesOf w % 2 = 1 → exec (.word w) s = .next s) ∧
    (onesOf w % 2 = 0 → exec (.word w) s = .next { s with events := s.events ++ (eventTable w).toList })

/-- R169: the three known rows of the Code to Event table; that a row's word delivers its event is the model's choice of
the row's meaning (log 13), with or without a callback (log 32). -/
def Obligations.KnownEventWordsCallTheCallback : Prop :=
  ∀ s : State,
    exec .wordAlarmArmed s = .next { s with events := s.events ++ [.alarmArmed] } ∧
    exec .wordSensorZ1A s = .next { s with events := s.events ++ [.sensorZ1] } ∧
    exec .wordSensorZ1B s = .next { s with events := s.events ++ [.sensorZ1] } ∧
    eventTable 0x49C1 = some .alarmArmed ∧ eventTable 0x1615 = some .sensorZ1 ∧ eventTable 0xB08A = some .sensorZ1

/-- R166, R165: ZONA_IN maps to the two words 0x00CF, 0x0000 in that order, and each is sent as a TX_SEND of it, the
model's choice of the meaning of the two table rows (log 13). -/
def Obligations.ZonaInSendsItsTwoWords : Prop :=
  ∀ s : State,
    keyTable .zonaIn = [0x00CF, 0x0000] ∧
    exec .wordZonaIn1 s = exec (.txSend 0x00CF) s ∧ exec .wordZonaIn2 s = exec (.txSend 0x0000) s ∧
    (s.initd = true →
      exec .wordZonaIn1 s = .next { s with txw := 0x00CF, qt := s.now, txph := .ctsWait } ∧
      exec .wordZonaIn2 s = .next { s with txw := 0x0000, qt := s.now, txph := .ctsWait })

/-- R170: every word of either table has an even number of ones, and a key has one or two words (R166). The model makes
its free rows so (log 15). -/
def Obligations.TableWordsAreValid : Prop :=
  (∀ (k : Key) (w : Word), w ∈ keyTable k → onesOf w % 2 = 0) ∧
  (∀ k : Key, (keyTable k).length = 1 ∨ (keyTable k).length = 2) ∧
  (∀ (w : Word) (e : Event), eventTable w = some e → onesOf w % 2 = 0)

/-- R165, R167, R168: `sendKey` begins to send the words of its key, `sendKeys` of digits those of the keys its digits
denote, in order; a sequence with any other character is refused; the call returns when no word is left. The host software
stands in the state (log 14, 30), and one list holds the words of all the keys (log 33). -/
def Obligations.SendKeysTakesDigitsOnly : Prop :=
  (∀ (s : State) (late : Bool) (call : HostCall) (rest : List HostItem),
    s.tickPhase = (if late then .hostLate else .hostEarly) → s.txph = .idle → s.hostMode = .free →
    s.hostIn = .issue late call :: rest →
    (∀ k, call = .sendKey k → step s = .next { s with hostIn := rest, hostMode := .sending (keyTable k) }) ∧
    (∀ ps : List (Char × Key), (∀ p ∈ ps, p ∈ digitPairs) → call = .sendKeys (ps.map (·.1)) →
      step s = .next { s with hostIn := rest, hostMode := .sending (ps.flatMap fun p => keyTable p.2) }) ∧
    (∀ cs, call = .sendKeys cs → (∃ ch ∈ cs, ¬ ('0' ≤ ch ∧ ch ≤ '9')) → step s = .refused .nonDigit)) ∧
  (∀ s : State, (s.tickPhase = .hostEarly ∨ s.tickPhase = .hostLate) → s.txph = .idle → s.hostMode = .sending [] →
    step s = .next { s with hostMode := .free })

/-- R160, R161, R163, R184: the loop's condition, the iteration's emptiness check, its read and its validity test, in either
of HOST's parts of a tick in which `poll` takes its step; a yield of an open length follows an iteration that finds nothing
or drops its word, and the loop's condition is tested again after it. In a part of a tick in which the open choice lets
`poll` pass, the tick goes on and nothing else happens, between any two of its steps (log 14, 16). -/
def Obligations.PollLoopsUntilTimedOutAndDrained : Prop :=
  (∀ (s : State) (start timeout : Nat), (s.tickPhase = .hostEarly ∨ s.tickPhase = .hostLate) → s.txph = .idle →
    s.initd = true → nextChoice s % 2 = 0 →
    let u := afterChoice s
    (s.hostMode = .pollTest start timeout →
      (s.ms - start < timeout → step s = .next { u with hostMode := .pollCheck start timeout }) ∧
      (timeout ≤ s.ms - start → s.head ≠ s.tail →
        step s = .next { u with hostMode := .pollCheck start timeout, result := 0 }) ∧
      (timeout ≤ s.ms - start → s.head = s.tail →
        step s = .next { u with hostMode := .free, result := 1 })) ∧
    (s.hostMode = .pollCheck start timeout →
      (s.head ≠ s.tail → step s = .next { u with hostMode := .pollRead start timeout, result := 0 }) ∧
      (s.head = s.tail →
        step s = .next { afterChoice u with hostMode := .pollYield start timeout (nextChoice u), result := 1 })) ∧
    (s.hostMode = .pollRead start timeout → s.head ≠ s.tail →
      ∀ w, s.buf.read s.head.toNat = some w →
        step s = .next { u with hostMode := .pollValid start timeout w, result := w,
                                head := BitVec.ofNat 6 ((s.head.toNat + 1) % 64) }) ∧
    (∀ w, s.hostMode = .pollValid start timeout w →
      (onesOf w % 2 = 0 → step s = .next { u with hostMode := .pollHandle start timeout w, result := 1 }) ∧
      (onesOf w % 2 = 1 →
        step s = .next { afterChoice u with hostMode := .pollYield start timeout (nextChoice u), result := 0 }))) ∧
  (∀ (s : State) (start timeout : Nat) (w : Word), s.txph = .idle → nextChoice s % 2 = 1 →
    (s.hostMode = .pollTest start timeout ∨ s.hostMode = .pollCheck start timeout ∨
      s.hostMode = .pollRead start timeout ∨ s.hostMode = .pollValid start timeout w ∨
      s.hostMode = .pollHandle start timeout w) →
    (s.tickPhase = .hostEarly → step s = .next { afterChoice s with tickPhase := .edge }) ∧
    (s.tickPhase = .hostLate → step s = .next (ticked (afterChoice s) (nextEnv s)))) ∧
  (∀ (s : State) (start timeout ticks : Nat), s.txph = .idle → s.hostMode = .pollYield start timeout ticks →
    (s.tickPhase = .hostEarly ∨ s.tickPhase = .hostLate) →
    (ticks = 0 → step s = .next { s with hostMode := .pollTest start timeout }) ∧
    (0 < ticks → s.tickPhase = .hostEarly → step s = .next { s with tickPhase := .edge }) ∧
    (0 < ticks → s.tickPhase = .hostLate →
      step s = .next (ticked { s with hostMode := .pollYield start timeout (ticks - 1) } (nextEnv s))))

/-- U20, R214, and the model's reading of them (log 31): a `poll` call begins by reading MS where a callback is registered, and is refused where none is. -/
def Obligations.PollNeedsACallback : Prop :=
  ∀ (n : Nat) (late : Bool) (s : State) (rest : List HostItem),
    s.tickPhase = (if late then .hostLate else .hostEarly) → s.txph = .idle → s.hostMode = .free →
    s.hostIn = .issue late (.poll n) :: rest →
    (s.callback = true → step s = .next { s with hostIn := rest, hostMode := .pollTest s.ms n }) ∧
    (s.callback = false → step s = .refused .noCallback)
end

