-- ==== Sys2Proof/Laws/Decode.lean ====
section
/-! SUPPORT. What the decoder and the encoder compute, once for each of their functions. -/

namespace Sys2Proof

theorem natFrom_lt (n : Nat) (f : Nat → Bool) : natFrom n f < 2 ^ n := by
  induction n with
  | zero => simp [natFrom]
  | succ n ih =>
    rw [natFrom, Nat.pow_succ]
    split <;> omega

theorem natFrom_testBit (n : Nat) (f : Nat → Bool) (i : Nat) : (natFrom n f).testBit i = (decide (i < n) && f i) := by
  induction n with
  | zero => simp [natFrom]
  | succ n ih =>
    have hlt := natFrom_lt n f
    rcases Nat.lt_trichotomy i n with h | h | h
    · rw [natFrom, decide_eq_true (Nat.lt_succ_of_lt h)]
      rw [decide_eq_true h] at ih
      split
      · rw [Nat.testBit_two_pow_add_gt h, ih]
      · rw [Nat.zero_add, ih]
    · subst h
      rw [natFrom, decide_eq_true (Nat.lt_succ_self i), Bool.true_and]
      cases hf : f i
      · rw [if_neg Bool.false_ne_true, Nat.zero_add, Nat.testBit_lt_two_pow hlt]
      · rw [if_pos rfl, Nat.testBit_two_pow_add_eq, Nat.testBit_lt_two_pow hlt, Bool.not_false]
    · rw [decide_eq_false (by omega), Bool.false_and]
      exact Nat.testBit_lt_two_pow (lt_of_lt_of_le (natFrom_lt (n + 1) f) (Nat.pow_le_pow_right (by omega) h))

theorem bitsFrom_getLsbD (n : Nat) (f : Nat → Bool) (i : Nat) :
    (bitsFrom n f).getLsbD i = (decide (i < n) && f i) := by
  rw [bitsFrom, BitVec.getLsbD_ofNat, natFrom_testBit, ← Bool.and_assoc, Bool.and_self]

theorem frameBits_getLsbD (w : Word) (i : Nat) :
    (frameBits w).getLsbD i = (decide (i < 50) && chip w (49 - i)) :=
  bitsFrom_getLsbD 50 _ i

theorem frameWord_frameBits (w : Word) : frameWord (frameBits w) = w := by
  apply BitVec.eq_of_getLsbD_eq
  intro i hi
  simp only [frameWord, frameBits, bitsFrom_getLsbD]
  interval_cases i <;> simp [chip]

theorem decodeFrame_frameBits (w : Word) : decodeFrame (frameBits w) = .ok (.txFrame w) := by
  simp [decodeFrame, frameWord_frameBits]

/-- A frame that decodes is the frame of the word it decodes to. -/
theorem decodeFrame_ok {f : BitVec 50} {i : Instr} (h : decodeFrame f = .ok i) :
    ∃ w, i = .txFrame w ∧ f = frameBits w := by
  unfold decodeFrame at h
  split at h
  · rename_i hf
    exact ⟨frameWord f, by simpa using h.symm, hf.symm⟩
  · simp at h

@[simp] theorem commandOp_append (op : BitVec 5) (arg : Word) : commandOp (op ++ arg) = op := by
  apply BitVec.eq_of_getLsbD_eq
  intro i hi
  rw [commandOp, BitVec.getLsbD_extractLsb', decide_eq_true hi, Bool.true_and]
  refine (BitVec.getLsbD_append (x := op) (y := arg)).trans ?_
  simp

@[simp] theorem commandArg_append (op : BitVec 5) (arg : Word) : commandArg (op ++ arg) = arg := by
  apply BitVec.eq_of_getLsbD_eq
  intro i hi
  rw [commandArg, BitVec.getLsbD_extractLsb', decide_eq_true hi, Bool.true_and, Nat.zero_add]
  refine (BitVec.getLsbD_append (x := op) (y := arg)).trans ?_
  simp [hi]

/-- A command is its code and its operand. -/
theorem command_eq_append (c : Command) : commandOp c ++ commandArg c = c := by
  apply BitVec.eq_of_getLsbD_eq
  intro i hi
  simp only [BitVec.getLsbD_append, commandOp, commandArg, BitVec.getLsbD_extractLsb']
  split
  · simp [*]
  · have : 16 + (i - 16) = i := by omega
    simp [this]; omega

theorem commandOp_toNat (c : Command) : (commandOp c).toNat = c.toNat / 2 ^ 16 := by
  have := c.isLt
  simp [commandOp, BitVec.extractLsb'_toNat, Nat.shiftRight_eq_div_pow]
  omega

/-- The operation map, read at a code written out. -/
theorem decodeCommand_append (op : BitVec 5) (arg : Word) :
    decodeCommand (op ++ arg) =
      match op.toNat with
      | 0x01 => .ok (.init (arg.getLsbD 1) (arg.getLsbD 0))
      | 0x02 => .ok (.qPush arg)
      | 0x03 => .ok .qRead
      | 0x04 => .ok .qEmpty
      | 0x05 => .ok .qFull
      | 0x06 => .ok (.pktParity arg)
      | 0x07 => .ok (.pktId arg)
      | 0x08 => .ok (.pktData arg)
      | 0x09 => .ok (.pktChk arg)
      | 0x0A => .ok (.pktValid arg)
      | 0x0B => .ok (.txSend arg)
      | 0x0C => .ok .rdStatus
      | 0x0D => .ok .rdCfg
      | 0x10 => .ok .rdBitTime
      | 0x11 => .ok .rdZeroTime
      | 0x12 => .ok .rdIdleTime
      | 0x13 => .ok .rdCtsTime
      | 0x14 => .ok (.wrBitTime arg)
      | 0x15 => .ok (.wrZeroTime arg)
      | 0x16 => .ok (.wrIdleTime arg)
      | 0x17 => .ok (.wrCtsTime arg)
      | _ => .error .reservedCode := by
  rw [decodeCommand, commandOp_append, commandArg_append] <;> rfl

/-- A command decodes to a host operation and to nothing else. -/
theorem decodeCommand_ok {c : Command} {i : Instr} (h : decodeCommand c = .ok i) :
    (∃ t r, i = .init t r) ∨ (∃ w, i = .qPush w) ∨ i = .qRead ∨ i = .qEmpty ∨ i = .qFull ∨
    (∃ w, i = .pktParity w) ∨ (∃ w, i = .pktId w) ∨ (∃ w, i = .pktData w) ∨ (∃ w, i = .pktChk w) ∨
    (∃ w, i = .pktValid w) ∨ (∃ w, i = .txSend w) ∨ i = .rdStatus ∨ i = .rdCfg ∨ i = .rdBitTime ∨
    i = .rdZeroTime ∨ i = .rdIdleTime ∨ i = .rdCtsTime ∨ (∃ v, i = .wrBitTime v) ∨
    (∃ v, i = .wrZeroTime v) ∨ (∃ v, i = .wrIdleTime v) ∨ (∃ v, i = .wrCtsTime v) := by
  unfold decodeCommand at h
  split at h <;> simp_all [eq_comm]

theorem initArg_getLsbD_zero (t r : Bool) : (initArg t r).getLsbD 0 = r := by
  cases t <;> cases r <;> rfl

theorem initArg_getLsbD_one (t r : Bool) : (initArg t r).getLsbD 1 = t := by
  cases t <;> cases r <;> rfl

theorem decodeEvent_ok {b : BitVec 3} {i : Instr} (h : decodeEvent b = .ok i) : b = 0b110 ∧ i = .rxEdge := by
  unfold decodeEvent at h
  split at h <;> simp_all [eq_comm]

/-- A word before the dispatcher always decodes: to a known row, or to the plain word. -/
theorem decodeWord_ok (w : Word) :
    (w = 0x49C1 ∧ decodeWord w = .ok .wordAlarmArmed) ∨ (w = 0x1615 ∧ decodeWord w = .ok .wordSensorZ1A) ∨
    (w = 0xB08A ∧ decodeWord w = .ok .wordSensorZ1B) ∨ decodeWord w = .ok (.word w) := by
  unfold decodeWord
  split_ifs <;> simp_all

/-- A word of the Key table always decodes: to one of the two known words, or to a TX_SEND of it. -/
theorem decodeKeyWord_ok (w : Word) :
    (w = 0x00CF ∧ decodeKeyWord w = .ok .wordZonaIn1) ∨ (w = 0x0000 ∧ decodeKeyWord w = .ok .wordZonaIn2) ∨
    decodeKeyWord w = .ok (.txSend w) := by
  unfold decodeKeyWord
  split_ifs <;> simp_all

end Sys2Proof
end

