-- ==== Sys2Proof/Laws/Memory.lean ====
section
/-! SUPPORT. The queue storage: a read after a write, and the canonical form, which every operation keeps. -/

namespace Sys2Proof.Machine

theorem Memory.read_write_self (m : Memory) (a : Nat) (w : Word) : (m.write a w).read a = some w := by
  induction m with
  | nil => simp [Memory.write, Memory.read]
  | cons c m ih =>
    obtain ⟨b, v⟩ := c
    rw [Memory.write]
    split_ifs with h1 h2
    · simp [Memory.read]
    · simp [Memory.read]
    · simp [Memory.read, h2, ih]

theorem Memory.read_write_other (m : Memory) {a x : Nat} (w : Word) (hx : x ≠ a) :
    (m.write a w).read x = m.read x := by
  induction m with
  | nil => simp [Memory.write, Memory.read, hx]
  | cons c m ih =>
    obtain ⟨b, v⟩ := c
    rw [Memory.write]
    split_ifs with h1 h2
    · simp [Memory.read, hx]
    · subst h2; simp [Memory.read, hx]
    · simp [Memory.read, ih]

theorem Memory.read_write (m : Memory) (a x : Nat) (w : Word) :
    (m.write a w).read x = if x = a then some w else m.read x := by
  split_ifs with h
  · rw [h, Memory.read_write_self]
  · exact Memory.read_write_other m w h

theorem Memory.wfFrom_write (m : Memory) {lo a : Nat} (w : Word) (hm : m.wfFrom lo = true) (hl : lo ≤ a)
    (ha : a < 64) : (m.write a w).wfFrom lo = true := by
  induction m generalizing lo with
  | nil => simp [Memory.write, Memory.wfFrom, hl, ha]
  | cons c m ih =>
    obtain ⟨b, v⟩ := c
    simp only [Memory.wfFrom, Bool.and_eq_true, decide_eq_true_eq] at hm
    obtain ⟨⟨h1, h2⟩, h3⟩ := hm
    rw [Memory.write]
    split_ifs with h4 h5
    · simp [Memory.wfFrom, hl, ha, h2, h3]; omega
    · subst h5; simp [Memory.wfFrom, hl, ha, h3]
    · simp only [Memory.wfFrom, Bool.and_eq_true, decide_eq_true_eq]
      exact ⟨⟨h1, h2⟩, ih h3 (by omega)⟩

/-- Every write keeps the canonical form. -/
theorem Memory.wf_write (m : Memory) {a : Nat} (w : Word) (hm : m.wf = true) (ha : a < 64) :
    (m.write a w).wf = true :=
  Memory.wfFrom_write m w hm (Nat.zero_le a) ha

theorem reset_buf_wf : State.reset.buf.wf = true := rfl

/-- A push keeps the canonical form. -/
theorem pushWord_buf_wf (w : Word) (s : State) (h : s.buf.wf = true) : (pushWord w s).buf.wf = true := by
  unfold pushWord
  split
  · exact h
  · exact Memory.wf_write _ _ h s.tail.isLt

end Sys2Proof.Machine
end

