-- ==== Sys2Proof/Laws/State.lean ====
section
/-! SUPPORT. One lemma per field for each named update of the state, each true by `rfl`, so that no proof unfolds a record
update. -/

namespace Sys2Proof.Machine

/-! ### answer -/

@[simp] theorem answer_prevTs (s : State) (v : Word) : (s.answer v).prevTs = s.prevTs := rfl
@[simp] theorem answer_acc (s : State) (v : Word) : (s.answer v).acc = s.acc := rfl
@[simp] theorem answer_cnt (s : State) (v : Word) : (s.answer v).cnt = s.cnt := rfl
@[simp] theorem answer_buf (s : State) (v : Word) : (s.answer v).buf = s.buf := rfl
@[simp] theorem answer_head (s : State) (v : Word) : (s.answer v).head = s.head := rfl
@[simp] theorem answer_tail (s : State) (v : Word) : (s.answer v).tail = s.tail := rfl
@[simp] theorem answer_rxprev (s : State) (v : Word) : (s.answer v).rxprev = s.rxprev := rfl
@[simp] theorem answer_rxen (s : State) (v : Word) : (s.answer v).rxen = s.rxen := rfl
@[simp] theorem answer_txw (s : State) (v : Word) : (s.answer v).txw = s.txw := rfl
@[simp] theorem answer_qt (s : State) (v : Word) : (s.answer v).qt = s.qt := rfl
@[simp] theorem answer_txph (s : State) (v : Word) : (s.answer v).txph = s.txph := rfl
@[simp] theorem answer_txk (s : State) (v : Word) : (s.answer v).txk = s.txk := rfl
@[simp] theorem answer_txoe (s : State) (v : Word) : (s.answer v).txoe = s.txoe := rfl
@[simp] theorem answer_txout (s : State) (v : Word) : (s.answer v).txout = s.txout := rfl
@[simp] theorem answer_rxact (s : State) (v : Word) : (s.answer v).rxact = s.rxact := rfl
@[simp] theorem answer_txact (s : State) (v : Word) : (s.answer v).txact = s.txact := rfl
@[simp] theorem answer_initd (s : State) (v : Word) : (s.answer v).initd = s.initd := rfl
@[simp] theorem answer_bitTime (s : State) (v : Word) : (s.answer v).bitTime = s.bitTime := rfl
@[simp] theorem answer_zeroTime (s : State) (v : Word) : (s.answer v).zeroTime = s.zeroTime := rfl
@[simp] theorem answer_idleTime (s : State) (v : Word) : (s.answer v).idleTime = s.idleTime := rfl
@[simp] theorem answer_ctsTime (s : State) (v : Word) : (s.answer v).ctsTime = s.ctsTime := rfl
@[simp] theorem answer_rx (s : State) (v : Word) : (s.answer v).rx = s.rx := rfl
@[simp] theorem answer_now (s : State) (v : Word) : (s.answer v).now = s.now := rfl
@[simp] theorem answer_result (s : State) (v : Word) : (s.answer v).result = v := rfl
@[simp] theorem answer_ms (s : State) (v : Word) : (s.answer v).ms = s.ms := rfl
@[simp] theorem answer_callback (s : State) (v : Word) : (s.answer v).callback = s.callback := rfl
@[simp] theorem answer_logger (s : State) (v : Word) : (s.answer v).logger = s.logger := rfl
@[simp] theorem answer_events (s : State) (v : Word) : (s.answer v).events = s.events := rfl
@[simp] theorem answer_hostMode (s : State) (v : Word) : (s.answer v).hostMode = s.hostMode := rfl
@[simp] theorem answer_hostIn (s : State) (v : Word) : (s.answer v).hostIn = s.hostIn := rfl
@[simp] theorem answer_tickPhase (s : State) (v : Word) : (s.answer v).tickPhase = s.tickPhase := rfl
@[simp] theorem answer_tick (s : State) (v : Word) : (s.answer v).tick = s.tick := rfl
@[simp] theorem answer_envIn (s : State) (v : Word) : (s.answer v).envIn = s.envIn := rfl
@[simp] theorem answer_choiceIn (s : State) (v : Word) : (s.answer v).choiceIn = s.choiceIn := rfl
@[simp] theorem answer_choices (s : State) (v : Word) : (s.answer v).choices = s.choices := rfl

/-! ### atPhase -/

@[simp] theorem atPhase_prevTs (s : State) (p : TickPhase) : (s.atPhase p).prevTs = s.prevTs := rfl
@[simp] theorem atPhase_acc (s : State) (p : TickPhase) : (s.atPhase p).acc = s.acc := rfl
@[simp] theorem atPhase_cnt (s : State) (p : TickPhase) : (s.atPhase p).cnt = s.cnt := rfl
@[simp] theorem atPhase_buf (s : State) (p : TickPhase) : (s.atPhase p).buf = s.buf := rfl
@[simp] theorem atPhase_head (s : State) (p : TickPhase) : (s.atPhase p).head = s.head := rfl
@[simp] theorem atPhase_tail (s : State) (p : TickPhase) : (s.atPhase p).tail = s.tail := rfl
@[simp] theorem atPhase_rxprev (s : State) (p : TickPhase) : (s.atPhase p).rxprev = s.rxprev := rfl
@[simp] theorem atPhase_rxen (s : State) (p : TickPhase) : (s.atPhase p).rxen = s.rxen := rfl
@[simp] theorem atPhase_txw (s : State) (p : TickPhase) : (s.atPhase p).txw = s.txw := rfl
@[simp] theorem atPhase_qt (s : State) (p : TickPhase) : (s.atPhase p).qt = s.qt := rfl
@[simp] theorem atPhase_txph (s : State) (p : TickPhase) : (s.atPhase p).txph = s.txph := rfl
@[simp] theorem atPhase_txk (s : State) (p : TickPhase) : (s.atPhase p).txk = s.txk := rfl
@[simp] theorem atPhase_txoe (s : State) (p : TickPhase) : (s.atPhase p).txoe = s.txoe := rfl
@[simp] theorem atPhase_txout (s : State) (p : TickPhase) : (s.atPhase p).txout = s.txout := rfl
@[simp] theorem atPhase_rxact (s : State) (p : TickPhase) : (s.atPhase p).rxact = s.rxact := rfl
@[simp] theorem atPhase_txact (s : State) (p : TickPhase) : (s.atPhase p).txact = s.txact := rfl
@[simp] theorem atPhase_initd (s : State) (p : TickPhase) : (s.atPhase p).initd = s.initd := rfl
@[simp] theorem atPhase_bitTime (s : State) (p : TickPhase) : (s.atPhase p).bitTime = s.bitTime := rfl
@[simp] theorem atPhase_zeroTime (s : State) (p : TickPhase) : (s.atPhase p).zeroTime = s.zeroTime := rfl
@[simp] theorem atPhase_idleTime (s : State) (p : TickPhase) : (s.atPhase p).idleTime = s.idleTime := rfl
@[simp] theorem atPhase_ctsTime (s : State) (p : TickPhase) : (s.atPhase p).ctsTime = s.ctsTime := rfl
@[simp] theorem atPhase_rx (s : State) (p : TickPhase) : (s.atPhase p).rx = s.rx := rfl
@[simp] theorem atPhase_now (s : State) (p : TickPhase) : (s.atPhase p).now = s.now := rfl
@[simp] theorem atPhase_result (s : State) (p : TickPhase) : (s.atPhase p).result = s.result := rfl
@[simp] theorem atPhase_ms (s : State) (p : TickPhase) : (s.atPhase p).ms = s.ms := rfl
@[simp] theorem atPhase_callback (s : State) (p : TickPhase) : (s.atPhase p).callback = s.callback := rfl
@[simp] theorem atPhase_logger (s : State) (p : TickPhase) : (s.atPhase p).logger = s.logger := rfl
@[simp] theorem atPhase_events (s : State) (p : TickPhase) : (s.atPhase p).events = s.events := rfl
@[simp] theorem atPhase_hostMode (s : State) (p : TickPhase) : (s.atPhase p).hostMode = s.hostMode := rfl
@[simp] theorem atPhase_hostIn (s : State) (p : TickPhase) : (s.atPhase p).hostIn = s.hostIn := rfl
@[simp] theorem atPhase_tickPhase (s : State) (p : TickPhase) : (s.atPhase p).tickPhase = p := rfl
@[simp] theorem atPhase_tick (s : State) (p : TickPhase) : (s.atPhase p).tick = s.tick := rfl
@[simp] theorem atPhase_envIn (s : State) (p : TickPhase) : (s.atPhase p).envIn = s.envIn := rfl
@[simp] theorem atPhase_choiceIn (s : State) (p : TickPhase) : (s.atPhase p).choiceIn = s.choiceIn := rfl
@[simp] theorem atPhase_choices (s : State) (p : TickPhase) : (s.atPhase p).choices = s.choices := rfl

/-! ### inMode -/

@[simp] theorem inMode_prevTs (s : State) (m : HostMode) : (s.inMode m).prevTs = s.prevTs := rfl
@[simp] theorem inMode_acc (s : State) (m : HostMode) : (s.inMode m).acc = s.acc := rfl
@[simp] theorem inMode_cnt (s : State) (m : HostMode) : (s.inMode m).cnt = s.cnt := rfl
@[simp] theorem inMode_buf (s : State) (m : HostMode) : (s.inMode m).buf = s.buf := rfl
@[simp] theorem inMode_head (s : State) (m : HostMode) : (s.inMode m).head = s.head := rfl
@[simp] theorem inMode_tail (s : State) (m : HostMode) : (s.inMode m).tail = s.tail := rfl
@[simp] theorem inMode_rxprev (s : State) (m : HostMode) : (s.inMode m).rxprev = s.rxprev := rfl
@[simp] theorem inMode_rxen (s : State) (m : HostMode) : (s.inMode m).rxen = s.rxen := rfl
@[simp] theorem inMode_txw (s : State) (m : HostMode) : (s.inMode m).txw = s.txw := rfl
@[simp] theorem inMode_qt (s : State) (m : HostMode) : (s.inMode m).qt = s.qt := rfl
@[simp] theorem inMode_txph (s : State) (m : HostMode) : (s.inMode m).txph = s.txph := rfl
@[simp] theorem inMode_txk (s : State) (m : HostMode) : (s.inMode m).txk = s.txk := rfl
@[simp] theorem inMode_txoe (s : State) (m : HostMode) : (s.inMode m).txoe = s.txoe := rfl
@[simp] theorem inMode_txout (s : State) (m : HostMode) : (s.inMode m).txout = s.txout := rfl
@[simp] theorem inMode_rxact (s : State) (m : HostMode) : (s.inMode m).rxact = s.rxact := rfl
@[simp] theorem inMode_txact (s : State) (m : HostMode) : (s.inMode m).txact = s.txact := rfl
@[simp] theorem inMode_initd (s : State) (m : HostMode) : (s.inMode m).initd = s.initd := rfl
@[simp] theorem inMode_bitTime (s : State) (m : HostMode) : (s.inMode m).bitTime = s.bitTime := rfl
@[simp] theorem inMode_zeroTime (s : State) (m : HostMode) : (s.inMode m).zeroTime = s.zeroTime := rfl
@[simp] theorem inMode_idleTime (s : State) (m : HostMode) : (s.inMode m).idleTime = s.idleTime := rfl
@[simp] theorem inMode_ctsTime (s : State) (m : HostMode) : (s.inMode m).ctsTime = s.ctsTime := rfl
@[simp] theorem inMode_rx (s : State) (m : HostMode) : (s.inMode m).rx = s.rx := rfl
@[simp] theorem inMode_now (s : State) (m : HostMode) : (s.inMode m).now = s.now := rfl
@[simp] theorem inMode_result (s : State) (m : HostMode) : (s.inMode m).result = s.result := rfl
@[simp] theorem inMode_ms (s : State) (m : HostMode) : (s.inMode m).ms = s.ms := rfl
@[simp] theorem inMode_callback (s : State) (m : HostMode) : (s.inMode m).callback = s.callback := rfl
@[simp] theorem inMode_logger (s : State) (m : HostMode) : (s.inMode m).logger = s.logger := rfl
@[simp] theorem inMode_events (s : State) (m : HostMode) : (s.inMode m).events = s.events := rfl
@[simp] theorem inMode_hostMode (s : State) (m : HostMode) : (s.inMode m).hostMode = m := rfl
@[simp] theorem inMode_hostIn (s : State) (m : HostMode) : (s.inMode m).hostIn = s.hostIn := rfl
@[simp] theorem inMode_tickPhase (s : State) (m : HostMode) : (s.inMode m).tickPhase = s.tickPhase := rfl
@[simp] theorem inMode_tick (s : State) (m : HostMode) : (s.inMode m).tick = s.tick := rfl
@[simp] theorem inMode_envIn (s : State) (m : HostMode) : (s.inMode m).envIn = s.envIn := rfl
@[simp] theorem inMode_choiceIn (s : State) (m : HostMode) : (s.inMode m).choiceIn = s.choiceIn := rfl
@[simp] theorem inMode_choices (s : State) (m : HostMode) : (s.inMode m).choices = s.choices := rfl

/-! ### newTick -/

@[simp] theorem newTick_prevTs (s : State) : (newTick s).prevTs = s.prevTs := rfl
@[simp] theorem newTick_acc (s : State) : (newTick s).acc = s.acc := rfl
@[simp] theorem newTick_cnt (s : State) : (newTick s).cnt = s.cnt := rfl
@[simp] theorem newTick_buf (s : State) : (newTick s).buf = s.buf := rfl
@[simp] theorem newTick_head (s : State) : (newTick s).head = s.head := rfl
@[simp] theorem newTick_tail (s : State) : (newTick s).tail = s.tail := rfl
@[simp] theorem newTick_rxprev (s : State) : (newTick s).rxprev = s.rxprev := rfl
@[simp] theorem newTick_rxen (s : State) : (newTick s).rxen = s.rxen := rfl
@[simp] theorem newTick_txw (s : State) : (newTick s).txw = s.txw := rfl
@[simp] theorem newTick_qt (s : State) : (newTick s).qt = s.qt := rfl
@[simp] theorem newTick_txph (s : State) : (newTick s).txph = s.txph := rfl
@[simp] theorem newTick_txk (s : State) : (newTick s).txk = s.txk := rfl
@[simp] theorem newTick_txoe (s : State) : (newTick s).txoe = s.txoe := rfl
@[simp] theorem newTick_txout (s : State) : (newTick s).txout = s.txout := rfl
@[simp] theorem newTick_rxact (s : State) : (newTick s).rxact = s.rxact := rfl
@[simp] theorem newTick_txact (s : State) : (newTick s).txact = s.txact := rfl
@[simp] theorem newTick_initd (s : State) : (newTick s).initd = s.initd := rfl
@[simp] theorem newTick_bitTime (s : State) : (newTick s).bitTime = s.bitTime := rfl
@[simp] theorem newTick_zeroTime (s : State) : (newTick s).zeroTime = s.zeroTime := rfl
@[simp] theorem newTick_idleTime (s : State) : (newTick s).idleTime = s.idleTime := rfl
@[simp] theorem newTick_ctsTime (s : State) : (newTick s).ctsTime = s.ctsTime := rfl
@[simp] theorem newTick_rx (s : State) : (newTick s).rx = (nextEnv s).rx := rfl
@[simp] theorem newTick_now (s : State) : (newTick s).now = s.now + 1 := rfl
@[simp] theorem newTick_result (s : State) : (newTick s).result = s.result := rfl
@[simp] theorem newTick_ms (s : State) : (newTick s).ms = s.ms + (nextEnv s).msStep := rfl
@[simp] theorem newTick_callback (s : State) : (newTick s).callback = s.callback := rfl
@[simp] theorem newTick_logger (s : State) : (newTick s).logger = s.logger := rfl
@[simp] theorem newTick_events (s : State) : (newTick s).events = s.events := rfl
@[simp] theorem newTick_hostMode (s : State) : (newTick s).hostMode = s.hostMode := rfl
@[simp] theorem newTick_hostIn (s : State) : (newTick s).hostIn = s.hostIn := rfl
@[simp] theorem newTick_tickPhase (s : State) : (newTick s).tickPhase = .transmit := rfl
@[simp] theorem newTick_tick (s : State) : (newTick s).tick = s.tick + 1 := rfl
@[simp] theorem newTick_envIn (s : State) : (newTick s).envIn = s.envIn.tail := rfl
@[simp] theorem newTick_choiceIn (s : State) : (newTick s).choiceIn = s.choiceIn := rfl
@[simp] theorem newTick_choices (s : State) : (newTick s).choices = s.choices := rfl

/-! ### beginSend -/

@[simp] theorem beginSend_prevTs (w : Word) (s : State) : (beginSend w s).prevTs = s.prevTs := rfl
@[simp] theorem beginSend_acc (w : Word) (s : State) : (beginSend w s).acc = s.acc := rfl
@[simp] theorem beginSend_cnt (w : Word) (s : State) : (beginSend w s).cnt = s.cnt := rfl
@[simp] theorem beginSend_buf (w : Word) (s : State) : (beginSend w s).buf = s.buf := rfl
@[simp] theorem beginSend_head (w : Word) (s : State) : (beginSend w s).head = s.head := rfl
@[simp] theorem beginSend_tail (w : Word) (s : State) : (beginSend w s).tail = s.tail := rfl
@[simp] theorem beginSend_rxprev (w : Word) (s : State) : (beginSend w s).rxprev = s.rxprev := rfl
@[simp] theorem beginSend_rxen (w : Word) (s : State) : (beginSend w s).rxen = s.rxen := rfl
@[simp] theorem beginSend_txw (w : Word) (s : State) : (beginSend w s).txw = w := rfl
@[simp] theorem beginSend_qt (w : Word) (s : State) : (beginSend w s).qt = s.now := rfl
@[simp] theorem beginSend_txph (w : Word) (s : State) : (beginSend w s).txph = .ctsWait := rfl
@[simp] theorem beginSend_txk (w : Word) (s : State) : (beginSend w s).txk = s.txk := rfl
@[simp] theorem beginSend_txoe (w : Word) (s : State) : (beginSend w s).txoe = s.txoe := rfl
@[simp] theorem beginSend_txout (w : Word) (s : State) : (beginSend w s).txout = s.txout := rfl
@[simp] theorem beginSend_rxact (w : Word) (s : State) : (beginSend w s).rxact = s.rxact := rfl
@[simp] theorem beginSend_txact (w : Word) (s : State) : (beginSend w s).txact = s.txact := rfl
@[simp] theorem beginSend_initd (w : Word) (s : State) : (beginSend w s).initd = s.initd := rfl
@[simp] theorem beginSend_bitTime (w : Word) (s : State) : (beginSend w s).bitTime = s.bitTime := rfl
@[simp] theorem beginSend_zeroTime (w : Word) (s : State) : (beginSend w s).zeroTime = s.zeroTime := rfl
@[simp] theorem beginSend_idleTime (w : Word) (s : State) : (beginSend w s).idleTime = s.idleTime := rfl
@[simp] theorem beginSend_ctsTime (w : Word) (s : State) : (beginSend w s).ctsTime = s.ctsTime := rfl
@[simp] theorem beginSend_rx (w : Word) (s : State) : (beginSend w s).rx = s.rx := rfl
@[simp] theorem beginSend_now (w : Word) (s : State) : (beginSend w s).now = s.now := rfl
@[simp] theorem beginSend_result (w : Word) (s : State) : (beginSend w s).result = s.result := rfl
@[simp] theorem beginSend_ms (w : Word) (s : State) : (beginSend w s).ms = s.ms := rfl
@[simp] theorem beginSend_callback (w : Word) (s : State) : (beginSend w s).callback = s.callback := rfl
@[simp] theorem beginSend_logger (w : Word) (s : State) : (beginSend w s).logger = s.logger := rfl
@[simp] theorem beginSend_events (w : Word) (s : State) : (beginSend w s).events = s.events := rfl
@[simp] theorem beginSend_hostMode (w : Word) (s : State) : (beginSend w s).hostMode = s.hostMode := rfl
@[simp] theorem beginSend_hostIn (w : Word) (s : State) : (beginSend w s).hostIn = s.hostIn := rfl
@[simp] theorem beginSend_tickPhase (w : Word) (s : State) : (beginSend w s).tickPhase = s.tickPhase := rfl
@[simp] theorem beginSend_tick (w : Word) (s : State) : (beginSend w s).tick = s.tick := rfl
@[simp] theorem beginSend_envIn (w : Word) (s : State) : (beginSend w s).envIn = s.envIn := rfl
@[simp] theorem beginSend_choiceIn (w : Word) (s : State) : (beginSend w s).choiceIn = s.choiceIn := rfl
@[simp] theorem beginSend_choices (w : Word) (s : State) : (beginSend w s).choices = s.choices := rfl

/-! ### sampleLine -/

@[simp] theorem sampleLine_prevTs (s : State) : (sampleLine s).prevTs = s.prevTs := rfl
@[simp] theorem sampleLine_acc (s : State) : (sampleLine s).acc = s.acc := rfl
@[simp] theorem sampleLine_cnt (s : State) : (sampleLine s).cnt = s.cnt := rfl
@[simp] theorem sampleLine_buf (s : State) : (sampleLine s).buf = s.buf := rfl
@[simp] theorem sampleLine_head (s : State) : (sampleLine s).head = s.head := rfl
@[simp] theorem sampleLine_tail (s : State) : (sampleLine s).tail = s.tail := rfl
@[simp] theorem sampleLine_rxprev (s : State) : (sampleLine s).rxprev = s.rxprev := rfl
@[simp] theorem sampleLine_rxen (s : State) : (sampleLine s).rxen = s.rxen := rfl
@[simp] theorem sampleLine_txw (s : State) : (sampleLine s).txw = s.txw := rfl
@[simp] theorem sampleLine_qt (s : State) : (sampleLine s).qt = if activeRx s then s.now else s.qt := rfl
@[simp] theorem sampleLine_txph (s : State) : (sampleLine s).txph = s.txph := rfl
@[simp] theorem sampleLine_txk (s : State) : (sampleLine s).txk = s.txk := rfl
@[simp] theorem sampleLine_txoe (s : State) : (sampleLine s).txoe = s.txoe := rfl
@[simp] theorem sampleLine_txout (s : State) : (sampleLine s).txout = s.txout := rfl
@[simp] theorem sampleLine_rxact (s : State) : (sampleLine s).rxact = s.rxact := rfl
@[simp] theorem sampleLine_txact (s : State) : (sampleLine s).txact = s.txact := rfl
@[simp] theorem sampleLine_initd (s : State) : (sampleLine s).initd = s.initd := rfl
@[simp] theorem sampleLine_bitTime (s : State) : (sampleLine s).bitTime = s.bitTime := rfl
@[simp] theorem sampleLine_zeroTime (s : State) : (sampleLine s).zeroTime = s.zeroTime := rfl
@[simp] theorem sampleLine_idleTime (s : State) : (sampleLine s).idleTime = s.idleTime := rfl
@[simp] theorem sampleLine_ctsTime (s : State) : (sampleLine s).ctsTime = s.ctsTime := rfl
@[simp] theorem sampleLine_rx (s : State) : (sampleLine s).rx = s.rx := rfl
@[simp] theorem sampleLine_now (s : State) : (sampleLine s).now = s.now := rfl
@[simp] theorem sampleLine_result (s : State) : (sampleLine s).result = s.result := rfl
@[simp] theorem sampleLine_ms (s : State) : (sampleLine s).ms = s.ms := rfl
@[simp] theorem sampleLine_callback (s : State) : (sampleLine s).callback = s.callback := rfl
@[simp] theorem sampleLine_logger (s : State) : (sampleLine s).logger = s.logger := rfl
@[simp] theorem sampleLine_events (s : State) : (sampleLine s).events = s.events := rfl
@[simp] theorem sampleLine_hostMode (s : State) : (sampleLine s).hostMode = s.hostMode := rfl
@[simp] theorem sampleLine_hostIn (s : State) : (sampleLine s).hostIn = s.hostIn := rfl
@[simp] theorem sampleLine_tickPhase (s : State) : (sampleLine s).tickPhase = s.tickPhase := rfl
@[simp] theorem sampleLine_tick (s : State) : (sampleLine s).tick = s.tick := rfl
@[simp] theorem sampleLine_envIn (s : State) : (sampleLine s).envIn = s.envIn := rfl
@[simp] theorem sampleLine_choiceIn (s : State) : (sampleLine s).choiceIn = s.choiceIn := rfl
@[simp] theorem sampleLine_choices (s : State) : (sampleLine s).choices = s.choices := rfl

/-! ### beginEmission -/

@[simp] theorem beginEmission_prevTs (s : State) : (beginEmission s).prevTs = s.prevTs := rfl
@[simp] theorem beginEmission_acc (s : State) : (beginEmission s).acc = s.acc := rfl
@[simp] theorem beginEmission_cnt (s : State) : (beginEmission s).cnt = s.cnt := rfl
@[simp] theorem beginEmission_buf (s : State) : (beginEmission s).buf = s.buf := rfl
@[simp] theorem beginEmission_head (s : State) : (beginEmission s).head = s.head := rfl
@[simp] theorem beginEmission_tail (s : State) : (beginEmission s).tail = s.tail := rfl
@[simp] theorem beginEmission_rxprev (s : State) : (beginEmission s).rxprev = s.rxprev := rfl
@[simp] theorem beginEmission_rxen (s : State) : (beginEmission s).rxen = false := rfl
@[simp] theorem beginEmission_txw (s : State) : (beginEmission s).txw = s.txw := rfl
@[simp] theorem beginEmission_qt (s : State) : (beginEmission s).qt = s.qt := rfl
@[simp] theorem beginEmission_txph (s : State) : (beginEmission s).txph = .emit := rfl
@[simp] theorem beginEmission_txk (s : State) : (beginEmission s).txk = 0 := rfl
@[simp] theorem beginEmission_txoe (s : State) : (beginEmission s).txoe = true := rfl
@[simp] theorem beginEmission_txout (s : State) : (beginEmission s).txout = s.txout := rfl
@[simp] theorem beginEmission_rxact (s : State) : (beginEmission s).rxact = s.rxact := rfl
@[simp] theorem beginEmission_txact (s : State) : (beginEmission s).txact = s.txact := rfl
@[simp] theorem beginEmission_initd (s : State) : (beginEmission s).initd = s.initd := rfl
@[simp] theorem beginEmission_bitTime (s : State) : (beginEmission s).bitTime = s.bitTime := rfl
@[simp] theorem beginEmission_zeroTime (s : State) : (beginEmission s).zeroTime = s.zeroTime := rfl
@[simp] theorem beginEmission_idleTime (s : State) : (beginEmission s).idleTime = s.idleTime := rfl
@[simp] theorem beginEmission_ctsTime (s : State) : (beginEmission s).ctsTime = s.ctsTime := rfl
@[simp] theorem beginEmission_rx (s : State) : (beginEmission s).rx = s.rx := rfl
@[simp] theorem beginEmission_now (s : State) : (beginEmission s).now = s.now := rfl
@[simp] theorem beginEmission_result (s : State) : (beginEmission s).result = s.result := rfl
@[simp] theorem beginEmission_ms (s : State) : (beginEmission s).ms = s.ms := rfl
@[simp] theorem beginEmission_callback (s : State) : (beginEmission s).callback = s.callback := rfl
@[simp] theorem beginEmission_logger (s : State) : (beginEmission s).logger = s.logger := rfl
@[simp] theorem beginEmission_events (s : State) : (beginEmission s).events = s.events := rfl
@[simp] theorem beginEmission_hostMode (s : State) : (beginEmission s).hostMode = s.hostMode := rfl
@[simp] theorem beginEmission_hostIn (s : State) : (beginEmission s).hostIn = s.hostIn := rfl
@[simp] theorem beginEmission_tickPhase (s : State) : (beginEmission s).tickPhase = s.tickPhase := rfl
@[simp] theorem beginEmission_tick (s : State) : (beginEmission s).tick = s.tick := rfl
@[simp] theorem beginEmission_envIn (s : State) : (beginEmission s).envIn = s.envIn := rfl
@[simp] theorem beginEmission_choiceIn (s : State) : (beginEmission s).choiceIn = s.choiceIn := rfl
@[simp] theorem beginEmission_choices (s : State) : (beginEmission s).choices = s.choices := rfl

/-! ### advanceTxk -/

@[simp] theorem advanceTxk_prevTs (s : State) : (advanceTxk s).prevTs = s.prevTs := rfl
@[simp] theorem advanceTxk_acc (s : State) : (advanceTxk s).acc = s.acc := rfl
@[simp] theorem advanceTxk_cnt (s : State) : (advanceTxk s).cnt = s.cnt := rfl
@[simp] theorem advanceTxk_buf (s : State) : (advanceTxk s).buf = s.buf := rfl
@[simp] theorem advanceTxk_head (s : State) : (advanceTxk s).head = s.head := rfl
@[simp] theorem advanceTxk_tail (s : State) : (advanceTxk s).tail = s.tail := rfl
@[simp] theorem advanceTxk_rxprev (s : State) : (advanceTxk s).rxprev = s.rxprev := rfl
@[simp] theorem advanceTxk_rxen (s : State) : (advanceTxk s).rxen = s.rxen := rfl
@[simp] theorem advanceTxk_txw (s : State) : (advanceTxk s).txw = s.txw := rfl
@[simp] theorem advanceTxk_qt (s : State) : (advanceTxk s).qt = s.qt := rfl
@[simp] theorem advanceTxk_txph (s : State) : (advanceTxk s).txph = s.txph := rfl
@[simp] theorem advanceTxk_txk (s : State) : (advanceTxk s).txk = s.txk + 1 := rfl
@[simp] theorem advanceTxk_txoe (s : State) : (advanceTxk s).txoe = s.txoe := rfl
@[simp] theorem advanceTxk_txout (s : State) : (advanceTxk s).txout = s.txout := rfl
@[simp] theorem advanceTxk_rxact (s : State) : (advanceTxk s).rxact = s.rxact := rfl
@[simp] theorem advanceTxk_txact (s : State) : (advanceTxk s).txact = s.txact := rfl
@[simp] theorem advanceTxk_initd (s : State) : (advanceTxk s).initd = s.initd := rfl
@[simp] theorem advanceTxk_bitTime (s : State) : (advanceTxk s).bitTime = s.bitTime := rfl
@[simp] theorem advanceTxk_zeroTime (s : State) : (advanceTxk s).zeroTime = s.zeroTime := rfl
@[simp] theorem advanceTxk_idleTime (s : State) : (advanceTxk s).idleTime = s.idleTime := rfl
@[simp] theorem advanceTxk_ctsTime (s : State) : (advanceTxk s).ctsTime = s.ctsTime := rfl
@[simp] theorem advanceTxk_rx (s : State) : (advanceTxk s).rx = s.rx := rfl
@[simp] theorem advanceTxk_now (s : State) : (advanceTxk s).now = s.now := rfl
@[simp] theorem advanceTxk_result (s : State) : (advanceTxk s).result = s.result := rfl
@[simp] theorem advanceTxk_ms (s : State) : (advanceTxk s).ms = s.ms := rfl
@[simp] theorem advanceTxk_callback (s : State) : (advanceTxk s).callback = s.callback := rfl
@[simp] theorem advanceTxk_logger (s : State) : (advanceTxk s).logger = s.logger := rfl
@[simp] theorem advanceTxk_events (s : State) : (advanceTxk s).events = s.events := rfl
@[simp] theorem advanceTxk_hostMode (s : State) : (advanceTxk s).hostMode = s.hostMode := rfl
@[simp] theorem advanceTxk_hostIn (s : State) : (advanceTxk s).hostIn = s.hostIn := rfl
@[simp] theorem advanceTxk_tickPhase (s : State) : (advanceTxk s).tickPhase = s.tickPhase := rfl
@[simp] theorem advanceTxk_tick (s : State) : (advanceTxk s).tick = s.tick := rfl
@[simp] theorem advanceTxk_envIn (s : State) : (advanceTxk s).envIn = s.envIn := rfl
@[simp] theorem advanceTxk_choiceIn (s : State) : (advanceTxk s).choiceIn = s.choiceIn := rfl
@[simp] theorem advanceTxk_choices (s : State) : (advanceTxk s).choices = s.choices := rfl

/-! ### endEmission -/

@[simp] theorem endEmission_prevTs (s : State) : (endEmission s).prevTs = s.prevTs := rfl
@[simp] theorem endEmission_acc (s : State) : (endEmission s).acc = s.acc := rfl
@[simp] theorem endEmission_cnt (s : State) : (endEmission s).cnt = s.cnt := rfl
@[simp] theorem endEmission_buf (s : State) : (endEmission s).buf = s.buf := rfl
@[simp] theorem endEmission_head (s : State) : (endEmission s).head = s.head := rfl
@[simp] theorem endEmission_tail (s : State) : (endEmission s).tail = s.tail := rfl
@[simp] theorem endEmission_rxprev (s : State) : (endEmission s).rxprev = s.rxprev := rfl
@[simp] theorem endEmission_rxen (s : State) : (endEmission s).rxen = true := rfl
@[simp] theorem endEmission_txw (s : State) : (endEmission s).txw = s.txw := rfl
@[simp] theorem endEmission_qt (s : State) : (endEmission s).qt = s.qt := rfl
@[simp] theorem endEmission_txph (s : State) : (endEmission s).txph = .idle := rfl
@[simp] theorem endEmission_txk (s : State) : (endEmission s).txk = s.txk := rfl
@[simp] theorem endEmission_txoe (s : State) : (endEmission s).txoe = false := rfl
@[simp] theorem endEmission_txout (s : State) : (endEmission s).txout = s.txout := rfl
@[simp] theorem endEmission_rxact (s : State) : (endEmission s).rxact = s.rxact := rfl
@[simp] theorem endEmission_txact (s : State) : (endEmission s).txact = s.txact := rfl
@[simp] theorem endEmission_initd (s : State) : (endEmission s).initd = s.initd := rfl
@[simp] theorem endEmission_bitTime (s : State) : (endEmission s).bitTime = s.bitTime := rfl
@[simp] theorem endEmission_zeroTime (s : State) : (endEmission s).zeroTime = s.zeroTime := rfl
@[simp] theorem endEmission_idleTime (s : State) : (endEmission s).idleTime = s.idleTime := rfl
@[simp] theorem endEmission_ctsTime (s : State) : (endEmission s).ctsTime = s.ctsTime := rfl
@[simp] theorem endEmission_rx (s : State) : (endEmission s).rx = s.rx := rfl
@[simp] theorem endEmission_now (s : State) : (endEmission s).now = s.now := rfl
@[simp] theorem endEmission_result (s : State) : (endEmission s).result = 0 := rfl
@[simp] theorem endEmission_ms (s : State) : (endEmission s).ms = s.ms := rfl
@[simp] theorem endEmission_callback (s : State) : (endEmission s).callback = s.callback := rfl
@[simp] theorem endEmission_logger (s : State) : (endEmission s).logger = s.logger := rfl
@[simp] theorem endEmission_events (s : State) : (endEmission s).events = s.events := rfl
@[simp] theorem endEmission_hostMode (s : State) : (endEmission s).hostMode = s.hostMode := rfl
@[simp] theorem endEmission_hostIn (s : State) : (endEmission s).hostIn = s.hostIn := rfl
@[simp] theorem endEmission_tickPhase (s : State) : (endEmission s).tickPhase = s.tickPhase := rfl
@[simp] theorem endEmission_tick (s : State) : (endEmission s).tick = s.tick := rfl
@[simp] theorem endEmission_envIn (s : State) : (endEmission s).envIn = s.envIn := rfl
@[simp] theorem endEmission_choiceIn (s : State) : (endEmission s).choiceIn = s.choiceIn := rfl
@[simp] theorem endEmission_choices (s : State) : (endEmission s).choices = s.choices := rfl

/-! ### driveChip -/

@[simp] theorem driveChip_prevTs (b : Bool) (s : State) : (driveChip b s).prevTs = s.prevTs := rfl
@[simp] theorem driveChip_acc (b : Bool) (s : State) : (driveChip b s).acc = s.acc := rfl
@[simp] theorem driveChip_cnt (b : Bool) (s : State) : (driveChip b s).cnt = s.cnt := rfl
@[simp] theorem driveChip_buf (b : Bool) (s : State) : (driveChip b s).buf = s.buf := rfl
@[simp] theorem driveChip_head (b : Bool) (s : State) : (driveChip b s).head = s.head := rfl
@[simp] theorem driveChip_tail (b : Bool) (s : State) : (driveChip b s).tail = s.tail := rfl
@[simp] theorem driveChip_rxprev (b : Bool) (s : State) : (driveChip b s).rxprev = s.rxprev := rfl
@[simp] theorem driveChip_rxen (b : Bool) (s : State) : (driveChip b s).rxen = s.rxen := rfl
@[simp] theorem driveChip_txw (b : Bool) (s : State) : (driveChip b s).txw = s.txw := rfl
@[simp] theorem driveChip_qt (b : Bool) (s : State) : (driveChip b s).qt = s.qt := rfl
@[simp] theorem driveChip_txph (b : Bool) (s : State) : (driveChip b s).txph = s.txph := rfl
@[simp] theorem driveChip_txk (b : Bool) (s : State) : (driveChip b s).txk = s.txk := rfl
@[simp] theorem driveChip_txoe (b : Bool) (s : State) : (driveChip b s).txoe = s.txoe := rfl
@[simp] theorem driveChip_txout (b : Bool) (s : State) : (driveChip b s).txout = lineLevel s.txact b := rfl
@[simp] theorem driveChip_rxact (b : Bool) (s : State) : (driveChip b s).rxact = s.rxact := rfl
@[simp] theorem driveChip_txact (b : Bool) (s : State) : (driveChip b s).txact = s.txact := rfl
@[simp] theorem driveChip_initd (b : Bool) (s : State) : (driveChip b s).initd = s.initd := rfl
@[simp] theorem driveChip_bitTime (b : Bool) (s : State) : (driveChip b s).bitTime = s.bitTime := rfl
@[simp] theorem driveChip_zeroTime (b : Bool) (s : State) : (driveChip b s).zeroTime = s.zeroTime := rfl
@[simp] theorem driveChip_idleTime (b : Bool) (s : State) : (driveChip b s).idleTime = s.idleTime := rfl
@[simp] theorem driveChip_ctsTime (b : Bool) (s : State) : (driveChip b s).ctsTime = s.ctsTime := rfl
@[simp] theorem driveChip_rx (b : Bool) (s : State) : (driveChip b s).rx = s.rx := rfl
@[simp] theorem driveChip_now (b : Bool) (s : State) : (driveChip b s).now = s.now := rfl
@[simp] theorem driveChip_result (b : Bool) (s : State) : (driveChip b s).result = s.result := rfl
@[simp] theorem driveChip_ms (b : Bool) (s : State) : (driveChip b s).ms = s.ms := rfl
@[simp] theorem driveChip_callback (b : Bool) (s : State) : (driveChip b s).callback = s.callback := rfl
@[simp] theorem driveChip_logger (b : Bool) (s : State) : (driveChip b s).logger = s.logger := rfl
@[simp] theorem driveChip_events (b : Bool) (s : State) : (driveChip b s).events = s.events := rfl
@[simp] theorem driveChip_hostMode (b : Bool) (s : State) : (driveChip b s).hostMode = s.hostMode := rfl
@[simp] theorem driveChip_hostIn (b : Bool) (s : State) : (driveChip b s).hostIn = s.hostIn := rfl
@[simp] theorem driveChip_tickPhase (b : Bool) (s : State) : (driveChip b s).tickPhase = s.tickPhase := rfl
@[simp] theorem driveChip_tick (b : Bool) (s : State) : (driveChip b s).tick = s.tick := rfl
@[simp] theorem driveChip_envIn (b : Bool) (s : State) : (driveChip b s).envIn = s.envIn := rfl
@[simp] theorem driveChip_choiceIn (b : Bool) (s : State) : (driveChip b s).choiceIn = s.choiceIn := rfl
@[simp] theorem driveChip_choices (b : Bool) (s : State) : (driveChip b s).choices = s.choices := rfl

/-! ### afterEdge -/

@[simp] theorem afterEdge_prevTs (s : State) : (afterEdge s).prevTs = s.prevTs := rfl
@[simp] theorem afterEdge_acc (s : State) : (afterEdge s).acc = s.acc := rfl
@[simp] theorem afterEdge_cnt (s : State) : (afterEdge s).cnt = s.cnt := rfl
@[simp] theorem afterEdge_buf (s : State) : (afterEdge s).buf = s.buf := rfl
@[simp] theorem afterEdge_head (s : State) : (afterEdge s).head = s.head := rfl
@[simp] theorem afterEdge_tail (s : State) : (afterEdge s).tail = s.tail := rfl
@[simp] theorem afterEdge_rxprev (s : State) : (afterEdge s).rxprev = activeRx s := rfl
@[simp] theorem afterEdge_rxen (s : State) : (afterEdge s).rxen = s.rxen := rfl
@[simp] theorem afterEdge_txw (s : State) : (afterEdge s).txw = s.txw := rfl
@[simp] theorem afterEdge_qt (s : State) : (afterEdge s).qt = s.qt := rfl
@[simp] theorem afterEdge_txph (s : State) : (afterEdge s).txph = s.txph := rfl
@[simp] theorem afterEdge_txk (s : State) : (afterEdge s).txk = s.txk := rfl
@[simp] theorem afterEdge_txoe (s : State) : (afterEdge s).txoe = s.txoe := rfl
@[simp] theorem afterEdge_txout (s : State) : (afterEdge s).txout = s.txout := rfl
@[simp] theorem afterEdge_rxact (s : State) : (afterEdge s).rxact = s.rxact := rfl
@[simp] theorem afterEdge_txact (s : State) : (afterEdge s).txact = s.txact := rfl
@[simp] theorem afterEdge_initd (s : State) : (afterEdge s).initd = s.initd := rfl
@[simp] theorem afterEdge_bitTime (s : State) : (afterEdge s).bitTime = s.bitTime := rfl
@[simp] theorem afterEdge_zeroTime (s : State) : (afterEdge s).zeroTime = s.zeroTime := rfl
@[simp] theorem afterEdge_idleTime (s : State) : (afterEdge s).idleTime = s.idleTime := rfl
@[simp] theorem afterEdge_ctsTime (s : State) : (afterEdge s).ctsTime = s.ctsTime := rfl
@[simp] theorem afterEdge_rx (s : State) : (afterEdge s).rx = s.rx := rfl
@[simp] theorem afterEdge_now (s : State) : (afterEdge s).now = s.now := rfl
@[simp] theorem afterEdge_result (s : State) : (afterEdge s).result = s.result := rfl
@[simp] theorem afterEdge_ms (s : State) : (afterEdge s).ms = s.ms := rfl
@[simp] theorem afterEdge_callback (s : State) : (afterEdge s).callback = s.callback := rfl
@[simp] theorem afterEdge_logger (s : State) : (afterEdge s).logger = s.logger := rfl
@[simp] theorem afterEdge_events (s : State) : (afterEdge s).events = s.events := rfl
@[simp] theorem afterEdge_hostMode (s : State) : (afterEdge s).hostMode = s.hostMode := rfl
@[simp] theorem afterEdge_hostIn (s : State) : (afterEdge s).hostIn = s.hostIn := rfl
@[simp] theorem afterEdge_tickPhase (s : State) : (afterEdge s).tickPhase = .hostLate := rfl
@[simp] theorem afterEdge_tick (s : State) : (afterEdge s).tick = s.tick := rfl
@[simp] theorem afterEdge_envIn (s : State) : (afterEdge s).envIn = s.envIn := rfl
@[simp] theorem afterEdge_choiceIn (s : State) : (afterEdge s).choiceIn = s.choiceIn := rfl
@[simp] theorem afterEdge_choices (s : State) : (afterEdge s).choices = s.choices := rfl

/-! ### clearBits -/

@[simp] theorem clearBits_prevTs (s : State) : (clearBits s).prevTs = s.prevTs := rfl
@[simp] theorem clearBits_acc (s : State) : (clearBits s).acc = 0 := rfl
@[simp] theorem clearBits_cnt (s : State) : (clearBits s).cnt = 0 := rfl
@[simp] theorem clearBits_buf (s : State) : (clearBits s).buf = s.buf := rfl
@[simp] theorem clearBits_head (s : State) : (clearBits s).head = s.head := rfl
@[simp] theorem clearBits_tail (s : State) : (clearBits s).tail = s.tail := rfl
@[simp] theorem clearBits_rxprev (s : State) : (clearBits s).rxprev = s.rxprev := rfl
@[simp] theorem clearBits_rxen (s : State) : (clearBits s).rxen = s.rxen := rfl
@[simp] theorem clearBits_txw (s : State) : (clearBits s).txw = s.txw := rfl
@[simp] theorem clearBits_qt (s : State) : (clearBits s).qt = s.qt := rfl
@[simp] theorem clearBits_txph (s : State) : (clearBits s).txph = s.txph := rfl
@[simp] theorem clearBits_txk (s : State) : (clearBits s).txk = s.txk := rfl
@[simp] theorem clearBits_txoe (s : State) : (clearBits s).txoe = s.txoe := rfl
@[simp] theorem clearBits_txout (s : State) : (clearBits s).txout = s.txout := rfl
@[simp] theorem clearBits_rxact (s : State) : (clearBits s).rxact = s.rxact := rfl
@[simp] theorem clearBits_txact (s : State) : (clearBits s).txact = s.txact := rfl
@[simp] theorem clearBits_initd (s : State) : (clearBits s).initd = s.initd := rfl
@[simp] theorem clearBits_bitTime (s : State) : (clearBits s).bitTime = s.bitTime := rfl
@[simp] theorem clearBits_zeroTime (s : State) : (clearBits s).zeroTime = s.zeroTime := rfl
@[simp] theorem clearBits_idleTime (s : State) : (clearBits s).idleTime = s.idleTime := rfl
@[simp] theorem clearBits_ctsTime (s : State) : (clearBits s).ctsTime = s.ctsTime := rfl
@[simp] theorem clearBits_rx (s : State) : (clearBits s).rx = s.rx := rfl
@[simp] theorem clearBits_now (s : State) : (clearBits s).now = s.now := rfl
@[simp] theorem clearBits_result (s : State) : (clearBits s).result = s.result := rfl
@[simp] theorem clearBits_ms (s : State) : (clearBits s).ms = s.ms := rfl
@[simp] theorem clearBits_callback (s : State) : (clearBits s).callback = s.callback := rfl
@[simp] theorem clearBits_logger (s : State) : (clearBits s).logger = s.logger := rfl
@[simp] theorem clearBits_events (s : State) : (clearBits s).events = s.events := rfl
@[simp] theorem clearBits_hostMode (s : State) : (clearBits s).hostMode = s.hostMode := rfl
@[simp] theorem clearBits_hostIn (s : State) : (clearBits s).hostIn = s.hostIn := rfl
@[simp] theorem clearBits_tickPhase (s : State) : (clearBits s).tickPhase = s.tickPhase := rfl
@[simp] theorem clearBits_tick (s : State) : (clearBits s).tick = s.tick := rfl
@[simp] theorem clearBits_envIn (s : State) : (clearBits s).envIn = s.envIn := rfl
@[simp] theorem clearBits_choiceIn (s : State) : (clearBits s).choiceIn = s.choiceIn := rfl
@[simp] theorem clearBits_choices (s : State) : (clearBits s).choices = s.choices := rfl

/-! ### deliver -/

@[simp] theorem deliver_prevTs (e : Event) (s : State) : (deliver e s).prevTs = s.prevTs := rfl
@[simp] theorem deliver_acc (e : Event) (s : State) : (deliver e s).acc = s.acc := rfl
@[simp] theorem deliver_cnt (e : Event) (s : State) : (deliver e s).cnt = s.cnt := rfl
@[simp] theorem deliver_buf (e : Event) (s : State) : (deliver e s).buf = s.buf := rfl
@[simp] theorem deliver_head (e : Event) (s : State) : (deliver e s).head = s.head := rfl
@[simp] theorem deliver_tail (e : Event) (s : State) : (deliver e s).tail = s.tail := rfl
@[simp] theorem deliver_rxprev (e : Event) (s : State) : (deliver e s).rxprev = s.rxprev := rfl
@[simp] theorem deliver_rxen (e : Event) (s : State) : (deliver e s).rxen = s.rxen := rfl
@[simp] theorem deliver_txw (e : Event) (s : State) : (deliver e s).txw = s.txw := rfl
@[simp] theorem deliver_qt (e : Event) (s : State) : (deliver e s).qt = s.qt := rfl
@[simp] theorem deliver_txph (e : Event) (s : State) : (deliver e s).txph = s.txph := rfl
@[simp] theorem deliver_txk (e : Event) (s : State) : (deliver e s).txk = s.txk := rfl
@[simp] theorem deliver_txoe (e : Event) (s : State) : (deliver e s).txoe = s.txoe := rfl
@[simp] theorem deliver_txout (e : Event) (s : State) : (deliver e s).txout = s.txout := rfl
@[simp] theorem deliver_rxact (e : Event) (s : State) : (deliver e s).rxact = s.rxact := rfl
@[simp] theorem deliver_txact (e : Event) (s : State) : (deliver e s).txact = s.txact := rfl
@[simp] theorem deliver_initd (e : Event) (s : State) : (deliver e s).initd = s.initd := rfl
@[simp] theorem deliver_bitTime (e : Event) (s : State) : (deliver e s).bitTime = s.bitTime := rfl
@[simp] theorem deliver_zeroTime (e : Event) (s : State) : (deliver e s).zeroTime = s.zeroTime := rfl
@[simp] theorem deliver_idleTime (e : Event) (s : State) : (deliver e s).idleTime = s.idleTime := rfl
@[simp] theorem deliver_ctsTime (e : Event) (s : State) : (deliver e s).ctsTime = s.ctsTime := rfl
@[simp] theorem deliver_rx (e : Event) (s : State) : (deliver e s).rx = s.rx := rfl
@[simp] theorem deliver_now (e : Event) (s : State) : (deliver e s).now = s.now := rfl
@[simp] theorem deliver_result (e : Event) (s : State) : (deliver e s).result = s.result := rfl
@[simp] theorem deliver_ms (e : Event) (s : State) : (deliver e s).ms = s.ms := rfl
@[simp] theorem deliver_callback (e : Event) (s : State) : (deliver e s).callback = s.callback := rfl
@[simp] theorem deliver_logger (e : Event) (s : State) : (deliver e s).logger = s.logger := rfl
@[simp] theorem deliver_events (e : Event) (s : State) : (deliver e s).events = s.events ++ [e] := rfl
@[simp] theorem deliver_hostMode (e : Event) (s : State) : (deliver e s).hostMode = s.hostMode := rfl
@[simp] theorem deliver_hostIn (e : Event) (s : State) : (deliver e s).hostIn = s.hostIn := rfl
@[simp] theorem deliver_tickPhase (e : Event) (s : State) : (deliver e s).tickPhase = s.tickPhase := rfl
@[simp] theorem deliver_tick (e : Event) (s : State) : (deliver e s).tick = s.tick := rfl
@[simp] theorem deliver_envIn (e : Event) (s : State) : (deliver e s).envIn = s.envIn := rfl
@[simp] theorem deliver_choiceIn (e : Event) (s : State) : (deliver e s).choiceIn = s.choiceIn := rfl
@[simp] theorem deliver_choices (e : Event) (s : State) : (deliver e s).choices = s.choices := rfl

end Sys2Proof.Machine
end

