-- ==== Sys2Proof/Laws/Ops.lean ====
section
/-! SUPPORT. One lemma per shared operation that says all it can do. -/

namespace Sys2Proof.Machine

theorem mapNext_eq_next {k : State → State} {o : Result} {t : State} :
    mapNext k o = .next t ↔ ∃ u, o = .next u ∧ t = k u := by
  cases o <;> simp [mapNext, eq_comm]

theorem whenInitialised_of {s : State} (o : Result) (h : s.initd = true) : whenInitialised s o = o := by
  simp [whenInitialised, h]

theorem whenInitialised_before {s : State} (o : Result) (h : s.initd = false) :
    whenInitialised s o = .refused .beforeInit := by
  simp [whenInitialised, h]

theorem whenInitialised_eq_next {s : State} {o : Result} {t : State} :
    whenInitialised s o = .next t ↔ s.initd = true ∧ o = .next t := by
  cases h : s.initd <;> simp [whenInitialised, h]

theorem answering_eq_next {s : State} {v : Word} {t : State} :
    answering s v = .next t ↔ s.initd = true ∧ t = s.answer v := by
  rw [answering, whenInitialised_eq_next, Host.Outcome.next.injEq, eq_comm (a := t)]

theorem keepingForm_eq_next {b z : Word} {s t : State} :
    keepingForm b z s = .next t ↔ (1 ≤ b.toNat ∧ z.toNat < 2 * b.toNat) ∧ t = s := by
  simp only [keepingForm, wellFormedTimes, Bool.and_eq_true, decide_eq_true_eq]
  by_cases h : 1 ≤ b.toNat ∧ z.toNat < 2 * b.toNat
  · rw [if_pos h, Host.Outcome.next.injEq, eq_comm (a := s), and_iff_right h]
  · rw [if_neg h]
    exact ⟨(nomatch ·), fun e => absurd e.1 h⟩

theorem nextSlot_toNat (i : Slot) : (nextSlot i).toNat = (i.toNat + 1) % 64 := by
  unfold nextSlot
  have := i.isLt
  split
  · simp only [slots] at *; simp; omega
  · simp

theorem nextSlot_eq_add (i : Slot) : nextSlot i = i + 1 := by
  apply BitVec.eq_of_toNat_eq
  rw [nextSlot_toNat]
  simp [BitVec.toNat_add]

theorem nextSlot_eq_ofNat (i : Slot) : nextSlot i = BitVec.ofNat 6 ((i.toNat + 1) % 64) := by
  apply BitVec.eq_of_toNat_eq
  rw [nextSlot_toNat]
  simp

theorem empty_iff (s : State) : empty s = true ↔ s.head = s.tail := by simp [empty]

theorem full_iff (s : State) : full s = true ↔ (s.tail.toNat + 1) % 64 = s.head.toNat := by
  rw [full, beq_iff_eq, ← nextSlot_toNat]
  exact ⟨fun h => by rw [h], BitVec.eq_of_toNat_eq⟩

theorem full_false_iff (s : State) : full s = false ↔ (s.tail.toNat + 1) % 64 ≠ s.head.toNat := by
  rw [← Bool.not_eq_true, full_iff]

/-- COUNT on natural numbers. -/
theorem count_eq (s : State) : count s = (64 - s.head.toNat + s.tail.toNat) % 64 := by
  simp [count, BitVec.toNat_sub]

theorem count_lt (s : State) : count s < 64 := (s.tail - s.head).isLt

theorem empty_iff_count (s : State) : empty s = true ↔ count s = 0 := by
  have h1 := s.head.isLt
  have h2 := s.tail.isLt
  rw [empty_iff, count_eq, ← BitVec.toNat_inj]
  omega

theorem full_iff_count (s : State) : full s = true ↔ count s = 63 := by
  have h1 := s.head.isLt
  have h2 := s.tail.isLt
  rw [full_iff, count_eq]
  omega

/-- A push drops the word or stores it. -/
theorem pushWord_cases (w : Word) (s : State) :
    (full s = true ∧ pushWord w s = s) ∨
    (full s = false ∧ pushWord w s = { s with buf := s.buf.write s.tail.toNat w, tail := nextSlot s.tail }) := by
  unfold pushWord
  cases h : full s <;> simp

/-- A push changes the storage and TAIL only. -/
theorem pushWord_eq (w : Word) (s : State) :
    pushWord w s = { s with buf := (pushWord w s).buf, tail := (pushWord w s).tail } := by
  rcases pushWord_cases w s with ⟨-, h⟩ | ⟨-, h⟩ <;> rw [h]

/-- A read returns 0 and changes nothing, or returns the slot at HEAD and advances HEAD. -/
theorem readWord_cases (s : State) :
    (s.head = s.tail ∧ readWord s = { s with result := 0 }) ∨
    (s.head ≠ s.tail ∧ readWord s = { s with head := nextSlot s.head, result := readSlot s s.head }) := by
  unfold readWord
  by_cases h : s.head = s.tail
  · exact .inl ⟨h, by simp [empty, h, State.answer]⟩
  · exact .inr ⟨h, by simp [empty, h]⟩

/-- The accumulator with a bit shifted in, as a number. -/
theorem shiftIn_toNat (a : Word) (b : Bool) : (shiftIn a b).toNat = (2 * a.toNat + b.toNat) % 2 ^ 16 := by
  have : shiftIn a b = (a.concat b).setWidth 16 := by
    apply BitVec.eq_of_getLsbD_eq
    intro i hi
    rcases i with _ | i
    · cases b <;> simp [shiftIn]
    · have h1 : i < 15 := by omega
      cases b <;> simp [shiftIn, hi, BitVec.getLsbD_eq_getElem (x := a) (i := i) (by omega)]
  rw [this, BitVec.toNat_setWidth, BitVec.toNat_concat, Nat.mul_comm]

/-- RX_EDGE clears, shifts a bit in, or completes a word (R103). -/
theorem rxEdgeStep_cases (s : State) :
    (idleEdge s = true ∧ rxEdgeStep s = { s with acc := 0, cnt := 0, prevTs := s.now }) ∨
    (idleEdge s = false ∧ s.cnt.toNat ≠ 15 ∧
      rxEdgeStep s = { s with acc := shiftIn s.acc (edgeBit s), cnt := s.cnt + 1, prevTs := s.now }) ∨
    (idleEdge s = false ∧ s.cnt.toNat = 15 ∧
      rxEdgeStep s = { pushWord (shiftIn s.acc (edgeBit s)) s with acc := 0, cnt := 0, prevTs := s.now }) := by
  unfold rxEdgeStep takeBit
  cases h : idleEdge s
  · by_cases hc : s.cnt.toNat = 15
    · refine .inr (.inr ⟨rfl, hc, ?_⟩)
      rw [if_neg Bool.false_ne_true, if_pos (by rw [hc])]
      rfl
    · refine .inr (.inl ⟨rfl, hc, ?_⟩)
      rw [if_neg Bool.false_ne_true, if_neg (by simp only [bitsPerWord]; omega)]
      rfl
  · exact .inl ⟨rfl, by rw [if_pos rfl]; rfl⟩

/-- RX_EDGE changes the decoder's registers, the storage and TAIL only. -/
theorem rxEdgeStep_eq (s : State) :
    rxEdgeStep s = { s with prevTs := s.now, acc := (rxEdgeStep s).acc, cnt := (rxEdgeStep s).cnt,
                            buf := (rxEdgeStep s).buf, tail := (rxEdgeStep s).tail } := by
  rcases rxEdgeStep_cases s with ⟨-, h⟩ | ⟨-, -, h⟩ | ⟨-, -, h⟩
  · rw [h]
  · rw [h]
  · rw [h, pushWord_eq]

/-- The dispatcher changes the delivered events only. -/
theorem dispatchWord_eq (w : Word) (s : State) :
    dispatchWord w s = { s with events := (dispatchWord w s).events } := by
  unfold dispatchWord
  split
  · split <;> rfl
  · rfl

/-- An open choice changes the record of choices only. -/
theorem afterChoice_eq (s : State) :
    afterChoice s = { s with choiceIn := (afterChoice s).choiceIn, choices := (afterChoice s).choices } := by
  unfold afterChoice
  split <;> rfl

/-- HOST passes: on to the edge detector, or to the next tick. -/
theorem passTurn_cases (s : State) :
    (s.tickPhase = .hostEarly ∧ passTurn s = s.atPhase .edge) ∨
    (s.tickPhase ≠ .hostEarly ∧ passTurn s = newTick s) := by
  unfold passTurn
  split <;> simp [*]

/-- After a host operation the machine goes on in the same part of the tick, or evaluates the new wait. -/
theorem settle_cases (s : State) :
    (s.txph = .ctsWait ∧ settle s = s.atPhase .transmit) ∨ (s.txph ≠ .ctsWait ∧ settle s = s) := by
  unfold settle
  split <;> simp [*]

/-- Bits that are executed decode to an instruction that has a next state. -/
theorem runCoded_eq_next {c : Coded} {k : State → State} {s t : State} :
    runCoded c k s = .next t ↔ ∃ i u, decode c = .ok i ∧ exec i s = .next u ∧ t = k u := by
  unfold runCoded
  cases h : decode c with
  | ok i => simp [mapNext_eq_next]
  | error e => simp

/-- The step, by the part of the tick. -/
theorem step_transmit {s : State} (h : s.tickPhase = .transmit) : step s = transmitTurn s := by
  simp [step, turn, h]

theorem step_drive {s : State} (h : s.tickPhase = .drive) : step s = driveTurn s := by
  simp [step, turn, h]

theorem step_hostEarly {s : State} (h : s.tickPhase = .hostEarly) : step s = hostTurn s := by
  simp [step, turn, h]

theorem step_edge {s : State} (h : s.tickPhase = .edge) : step s = edgeTurn s := by
  simp [step, turn, h]

theorem step_hostLate {s : State} (h : s.tickPhase = .hostLate) : step s = hostTurn s := by
  simp [step, turn, h]

end Sys2Proof.Machine
end

