-- ==== Sys2Proof/Laws/PerInstr.lean ====
section
/-! SUPPORT. The family FixedBits, one lemma per instruction: its encoding stands in the format of its row of the opcode
table and has the bits that the row's pattern fixes. -/

namespace Sys2Proof.Laws.FixedBits

/-- The width of a row's pattern, the bits it fixes and their values. -/
structure Row where
  width : Nat
  mask : Nat
  pattern : Nat

/-- The row of the opcode table that a constructor stands for. -/
def row : Instr → Row
  | .init _ _ => ⟨21, 0x1F0000, 0x010000⟩
  | .qPush _ => ⟨21, 0x1F0000, 0x020000⟩
  | .qRead => ⟨21, 0x1F0000, 0x030000⟩
  | .qEmpty => ⟨21, 0x1F0000, 0x040000⟩
  | .qFull => ⟨21, 0x1F0000, 0x050000⟩
  | .pktParity _ => ⟨21, 0x1F0000, 0x060000⟩
  | .pktId _ => ⟨21, 0x1F0000, 0x070000⟩
  | .pktData _ => ⟨21, 0x1F0000, 0x080000⟩
  | .pktChk _ => ⟨21, 0x1F0000, 0x090000⟩
  | .pktValid _ => ⟨21, 0x1F0000, 0x0A0000⟩
  | .txSend _ => ⟨21, 0x1F0000, 0x0B0000⟩
  | .rdStatus => ⟨21, 0x1F0000, 0x0C0000⟩
  | .rdCfg => ⟨21, 0x1F0000, 0x0D0000⟩
  | .rdBitTime => ⟨21, 0x1F0000, 0x100000⟩
  | .rdZeroTime => ⟨21, 0x1F0000, 0x110000⟩
  | .rdIdleTime => ⟨21, 0x1F0000, 0x120000⟩
  | .rdCtsTime => ⟨21, 0x1F0000, 0x130000⟩
  | .wrBitTime _ => ⟨21, 0x1F0000, 0x140000⟩
  | .wrZeroTime _ => ⟨21, 0x1F0000, 0x150000⟩
  | .wrIdleTime _ => ⟨21, 0x1F0000, 0x160000⟩
  | .wrCtsTime _ => ⟨21, 0x1F0000, 0x170000⟩
  | .rxEdge => ⟨3, 7, 6⟩
  | .txsymStart => ⟨1, 1, 1⟩
  | .txsymBit0 => ⟨3, 7, 4⟩
  | .txsymBit1 => ⟨3, 7, 6⟩
  | .txsymStop => ⟨1, 1, 1⟩
  | .txFrame _ => ⟨50, 0x36DB6DB6DB6DB, 0x3249249249249⟩
  | .word _ => ⟨16, 0x0000, 0x0000⟩
  | .wordAlarmArmed => ⟨16, 0xFFFF, 0x49C1⟩
  | .wordSensorZ1A => ⟨16, 0xFFFF, 0x1615⟩
  | .wordSensorZ1B => ⟨16, 0xFFFF, 0xB08A⟩
  | .wordZonaIn1 => ⟨16, 0xFFFF, 0x00CF⟩
  | .wordZonaIn2 => ⟨16, 0xFFFF, 0x0000⟩

/-- Bits of the width that the row has agree with it where it fixes them. -/
def fits (n : Nat) (b : BitVec n) (r : Row) : Prop :=
  n = r.width ∧ b &&& BitVec.ofNat n r.mask = BitVec.ofNat n r.pattern

/-- The bits of an encoding agree with a row. -/
def agrees : Coded → Row → Prop
  | .command c, r => fits 21 c r
  | .event b, r => fits 3 b r
  | .symbol1 _ c, r => fits 1 c r
  | .symbol3 c, r => fits 3 c r
  | .frame f, r => fits 50 f r
  | .word w, r => fits 16 w r
  | .keyWord w, r => fits 16 w r

/-- The encoding of an instruction agrees with its row. -/
def Statement (i : Instr) : Prop := agrees (encode i) (row i)

/-- A command agrees with a row that fixes the operation code alone. -/
theorem command_fits (op : BitVec 5) (w : Word) (p : Nat) (hp : BitVec.ofNat 21 p = op ++ (0 : Word)) :
    fits 21 (commandOf op w) ⟨21, 0x1F0000, p⟩ := by
  refine ⟨rfl, ?_⟩
  rw [hp, commandOf]
  apply BitVec.eq_of_getLsbD_eq
  intro i hi
  simp only [BitVec.getLsbD_and, BitVec.getLsbD_append]
  interval_cases i <;> simp

/-- The fixed chips of a frame. -/
theorem frame_fits (w : Word) : fits 50 (frameBits w) (row (.txFrame w)) := by
  refine ⟨rfl, ?_⟩
  apply BitVec.eq_of_getLsbD_eq
  intro i hi
  rw [BitVec.getLsbD_and, frameBits_getLsbD]
  interval_cases i <;> simp [chip, row]

theorem init (t r : Bool) : Statement (.init t r) := command_fits _ _ _ rfl
theorem qPush (w : Word) : Statement (.qPush w) := command_fits _ _ _ rfl
theorem qRead : Statement .qRead := command_fits _ _ _ rfl
theorem qEmpty : Statement .qEmpty := command_fits _ _ _ rfl
theorem qFull : Statement .qFull := command_fits _ _ _ rfl
theorem pktParity (w : Word) : Statement (.pktParity w) := command_fits _ _ _ rfl
theorem pktId (w : Word) : Statement (.pktId w) := command_fits _ _ _ rfl
theorem pktData (w : Word) : Statement (.pktData w) := command_fits _ _ _ rfl
theorem pktChk (w : Word) : Statement (.pktChk w) := command_fits _ _ _ rfl
theorem pktValid (w : Word) : Statement (.pktValid w) := command_fits _ _ _ rfl
theorem txSend (w : Word) : Statement (.txSend w) := command_fits _ _ _ rfl
theorem rdStatus : Statement .rdStatus := command_fits _ _ _ rfl
theorem rdCfg : Statement .rdCfg := command_fits _ _ _ rfl
theorem rdBitTime : Statement .rdBitTime := command_fits _ _ _ rfl
theorem rdZeroTime : Statement .rdZeroTime := command_fits _ _ _ rfl
theorem rdIdleTime : Statement .rdIdleTime := command_fits _ _ _ rfl
theorem rdCtsTime : Statement .rdCtsTime := command_fits _ _ _ rfl
theorem wrBitTime (v : Word) : Statement (.wrBitTime v) := command_fits _ _ _ rfl
theorem wrZeroTime (v : Word) : Statement (.wrZeroTime v) := command_fits _ _ _ rfl
theorem wrIdleTime (v : Word) : Statement (.wrIdleTime v) := command_fits _ _ _ rfl
theorem wrCtsTime (v : Word) : Statement (.wrCtsTime v) := command_fits _ _ _ rfl
theorem rxEdge : Statement .rxEdge := ⟨rfl, rfl⟩
theorem txsymStart : Statement .txsymStart := ⟨rfl, rfl⟩
theorem txsymBit0 : Statement .txsymBit0 := ⟨rfl, rfl⟩
theorem txsymBit1 : Statement .txsymBit1 := ⟨rfl, rfl⟩
theorem txsymStop : Statement .txsymStop := ⟨rfl, rfl⟩
theorem txFrame (w : Word) : Statement (.txFrame w) := frame_fits w
theorem word (w : Word) : Statement (.word w) := ⟨rfl, BitVec.and_zero⟩
theorem wordAlarmArmed : Statement .wordAlarmArmed := ⟨rfl, rfl⟩
theorem wordSensorZ1A : Statement .wordSensorZ1A := ⟨rfl, rfl⟩
theorem wordSensorZ1B : Statement .wordSensorZ1B := ⟨rfl, rfl⟩
theorem wordZonaIn1 : Statement .wordZonaIn1 := ⟨rfl, rfl⟩
theorem wordZonaIn2 : Statement .wordZonaIn2 := ⟨rfl, rfl⟩

end Sys2Proof.Laws.FixedBits
end

