-- ==== Sys2Proof/Laws/Turns.lean ====
section
/-! SUPPORT. What an instruction and what each part of a tick can do, said once. -/

namespace Sys2Proof.Machine

/-! ### Instructions -/

/-- The next states that instructions reach, grouped by their shape. -/
inductive Effect : Instr → State → State → Prop where
  | init (t r : Bool) {s : State} : s.initd = false → Effect (.init t r) s (initialise t r s)
  | push (w : Word) {s : State} : s.initd = true → Effect (.qPush w) s ((pushWord w s).answer 0)
  | read {s : State} : s.initd = true → Effect .qRead s (readWord s)
  | value (i : Instr) (v : Word) {s : State} : s.initd = true → Effect i s (s.answer v)
  | send (i : Instr) (w : Word) {s : State} : s.initd = true → Effect i s (beginSend w s)
  | bitTime (v : Word) {s : State} : s.initd = true → 1 ≤ v.toNat → s.zeroTime.toNat < 2 * v.toNat →
      Effect (.wrBitTime v) s { s with bitTime := v, result := 0 }
  | zeroTime (v : Word) {s : State} : s.initd = true → v.toNat < 2 * s.bitTime.toNat →
      Effect (.wrZeroTime v) s { s with zeroTime := v, result := 0 }
  | idleTime (v : Word) {s : State} : s.initd = true → Effect (.wrIdleTime v) s { s with idleTime := v, result := 0 }
  | ctsTime (v : Word) {s : State} : s.initd = true → Effect (.wrCtsTime v) s { s with ctsTime := v, result := 0 }
  | edge {s : State} : Effect .rxEdge s (rxEdgeStep s)
  | drive (i : Instr) (level : Bool) {s : State} :
      i = .txsymStart ∨ i = .txsymBit0 ∨ i = .txsymBit1 ∨ i = .txsymStop → Effect i s { s with txout := level }
  | frame (w : Word) {s : State} : Effect (.txFrame w) s (beginEmission { s with txw := w })
  | dispatch (i : Instr) (w : Word) {s : State} : Effect i s (dispatchWord w s)

theorem answering_effect {i : Instr} {v : Word} {s t : State} (h : answering s v = .next t) : Effect i s t := by
  obtain ⟨h1, h2⟩ := answering_eq_next.1 h
  subst h2
  exact .value i v h1

theorem send_effect {i : Instr} {w : Word} {s t : State} (h : whenInitialised s (.next (beginSend w s)) = .next t) :
    Effect i s t := by
  obtain ⟨h1, h2⟩ := whenInitialised_eq_next.1 h
  cases h2
  exact .send i w h1

theorem drive_effect {i : Instr} {level : Bool} {s t : State}
    (hi : i = .txsymStart ∨ i = .txsymBit0 ∨ i = .txsymBit1 ∨ i = .txsymStop)
    (h : (Host.Outcome.next (driveChip level s) : Result) = .next t) : Effect i s t := by
  cases h
  exact .drive i _ hi

theorem dispatch_effect {i : Instr} {w : Word} {s t : State}
    (h : (Host.Outcome.next (dispatchWord w s) : Result) = .next t) : Effect i s t := by
  have := Host.Outcome.next.inj h
  subst this
  exact .dispatch i w

/-- Every next state of an instruction is one of the listed ones. -/
theorem exec_effect {i : Instr} {s t : State} (h : exec i s = .next t) : Effect i s t := by
  cases i with
  | init a b =>
    simp only [exec, execInit] at h
    split at h
    · cases h
    · rename_i hi
      cases h
      exact .init a b (by simpa using hi)
  | qPush w =>
    obtain ⟨h1, h2⟩ := whenInitialised_eq_next.1 h
    cases h2
    exact .push w h1
  | qRead =>
    obtain ⟨h1, h2⟩ := whenInitialised_eq_next.1 h
    cases h2
    exact .read h1
  | qEmpty => exact answering_effect h
  | qFull => exact answering_effect h
  | pktParity w => exact answering_effect h
  | pktId w => exact answering_effect h
  | pktData w => exact answering_effect h
  | pktChk w => exact answering_effect h
  | pktValid w => exact answering_effect h
  | txSend w => exact send_effect h
  | rdStatus => exact answering_effect h
  | rdCfg => exact answering_effect h
  | rdBitTime => exact answering_effect h
  | rdZeroTime => exact answering_effect h
  | rdIdleTime => exact answering_effect h
  | rdCtsTime => exact answering_effect h
  | wrBitTime v =>
    obtain ⟨h1, h2⟩ := whenInitialised_eq_next.1 h
    obtain ⟨h3, h4⟩ := keepingForm_eq_next.1 h2
    subst h4
    exact .bitTime v h1 h3.1 h3.2
  | wrZeroTime v =>
    obtain ⟨h1, h2⟩ := whenInitialised_eq_next.1 h
    split at h2
    · rename_i h3
      cases h2
      exact .zeroTime v h1 (by simpa [zeroTimeFits] using h3)
    · cases h2
  | wrIdleTime v =>
    obtain ⟨h1, h2⟩ := whenInitialised_eq_next.1 h
    cases h2
    exact .idleTime v h1
  | wrCtsTime v =>
    obtain ⟨h1, h2⟩ := whenInitialised_eq_next.1 h
    cases h2
    exact .ctsTime v h1
  | rxEdge => cases h; exact .edge
  | txsymStart => exact drive_effect (by simp) h
  | txsymBit0 => exact drive_effect (by simp) h
  | txsymBit1 => exact drive_effect (by simp) h
  | txsymStop => exact drive_effect (by simp) h
  | txFrame w => cases h; exact .frame w
  | word w => exact dispatch_effect (w := w) h
  | wordAlarmArmed => exact dispatch_effect (w := 0x49C1) h
  | wordSensorZ1A => exact dispatch_effect (w := 0x1615) h
  | wordSensorZ1B => exact dispatch_effect (w := 0xB08A) h
  | wordZonaIn1 => exact send_effect h
  | wordZonaIn2 => exact send_effect h

/-! ### The transmitter's part of the tick -/

/-- The transmitter's transition: nothing, start of emission, one more tick of waiting, end of emission, or one more tick
of it. -/
theorem transmitTurn_cases (s : State) :
    (s.txph = .idle ∧ transmitTurn s = .next (s.atPhase .hostEarly)) ∨
    (s.txph = .ctsWait ∧ busFree (sampleLine s) = true ∧
      transmitTurn s = .next ((beginEmission (sampleLine s)).atPhase .drive)) ∨
    (s.txph = .ctsWait ∧ busFree (sampleLine s) = false ∧ transmitTurn s = .next ((sampleLine s).atPhase .edge)) ∨
    (s.txph = .emit ∧ (advanceTxk s).txk.toNat = frameTicks s ∧
      transmitTurn s = .next ((endEmission (advanceTxk s)).atPhase .hostEarly)) ∨
    (s.txph = .emit ∧ (advanceTxk s).txk.toNat ≠ frameTicks s ∧
      transmitTurn s = .next ((advanceTxk s).atPhase .drive)) := by
  unfold transmitTurn
  cases h : s.txph with
  | idle => exact .inl ⟨rfl, rfl⟩
  | ctsWait =>
    simp only [waitTurn]
    cases hb : busFree (sampleLine s) with
    | false => exact .inr (.inr (.inl ⟨trivial, rfl, rfl⟩))
    | true =>
      refine .inr (.inl ⟨trivial, rfl, ?_⟩)
      rw [if_pos rfl]
      simp only [runCoded, decode, decodeFrame_frameBits, exec, execTxFrame, mapNext]
      rfl
  | emit =>
    simp only [emitTurn]
    by_cases hk : (advanceTxk s).txk.toNat = frameTicks s
    · exact .inr (.inr (.inr (.inl ⟨trivial, hk, by rw [if_pos hk]⟩)))
    · exact .inr (.inr (.inr (.inr ⟨trivial, hk, by rw [if_neg hk]⟩)))

/-- The symbol that a chip of a frame belongs to always decodes. -/
theorem decode_symbolAt (w : Word) (c : Nat) :
    ∃ i, decode (symbolAt w c) = .ok i ∧ (i = .txsymStart ∨ i = .txsymStop ∨ i = .txsymBit0 ∨ i = .txsymBit1) := by
  by_cases h0 : c = 0
  · subst h0
    exact ⟨.txsymStart, rfl, by simp⟩
  by_cases h49 : c = 49
  · subst h49
    exact ⟨.txsymStop, rfl, by simp⟩
  have first : chip w (1 + 3 * ((c - 1) / 3)) = true := by
    rw [chip]
    split
    · rfl
    · rw [if_pos (by omega)]
  have third : chip w (1 + 3 * ((c - 1) / 3) + 2) = false := by
    rw [chip, if_neg (by omega), if_neg (by omega), if_neg (by omega)]
  simp only [symbolAt, if_neg h0, if_neg h49, first, third]
  generalize chip w (1 + 3 * ((c - 1) / 3) + 1) = b
  cases b
  · exact ⟨.txsymBit0, rfl, by simp⟩
  · exact ⟨.txsymBit1, rfl, by simp⟩

/-- The drive of the pin changes the output latch only. -/
theorem driveTurn_cases (s : State) :
    (s.txph ≠ .emit ∧ driveTurn s = .next (s.atPhase .edge)) ∨
    (s.txph = .emit ∧ ∃ level, driveTurn s = .next { s with txout := level, tickPhase := .edge }) := by
  unfold driveTurn
  split
  · rename_i h
    refine .inr ⟨h, ?_⟩
    obtain ⟨i, hd, hi⟩ := decode_symbolAt s.txw (chipIndex s)
    simp only [runCoded, hd]
    rcases hi with rfl | rfl | rfl | rfl <;> exact ⟨_, rfl⟩
  · rename_i h
    exact .inl ⟨h, rfl⟩

/-! ### The edge detector's part of the tick -/

/-- The three condition bits are 1, 1, 0 exactly at a qualifying edge with RXEN = 1. -/
theorem eventBits_eq_iff (s : State) : eventBits s = 0b110 ↔ s.rxen = true ∧ s.rx = s.rxact ∧ s.rxprev = false := by
  unfold eventBits activeRx
  cases s.rxen <;> cases s.rx <;> cases s.rxact <;> cases s.rxprev <;> decide

/-- The edge detector: the step RX_EDGE, or nothing but RXPREV. -/
theorem edgeTurn_cases (s : State) :
    (eventBits s = 0b110 ∧ edgeTurn s = .next (afterEdge (rxEdgeStep s))) ∨
    (eventBits s ≠ 0b110 ∧ edgeTurn s = .next (afterEdge s)) := by
  unfold edgeTurn
  by_cases h : eventBits s = 0b110
  · refine .inl ⟨h, ?_⟩
    simp only [decode, decodeEvent, if_pos h, exec, execRxEdge, mapNext]
  · refine .inr ⟨h, ?_⟩
    simp only [decode, decodeEvent, if_neg h]

/-! ### HOST's parts of the tick -/

/-- Only the host software's own fields differ. -/
def SoftwareOnly (s u : State) : Prop :=
  ∃ (m : HostMode) (h : List HostItem) (c : List Nat) (n : Nat) (callback logger : Bool),
    u = { s with hostMode := m, hostIn := h, choiceIn := c, choices := n, callback := callback, logger := logger }

theorem SoftwareOnly.refl (s : State) : SoftwareOnly s s := ⟨_, _, _, _, _, _, rfl⟩

theorem SoftwareOnly.trans {a b c : State} (h1 : SoftwareOnly a b) (h2 : SoftwareOnly b c) : SoftwareOnly a c := by
  obtain ⟨_, _, _, _, _, _, rfl⟩ := h1
  obtain ⟨_, _, _, _, _, _, rfl⟩ := h2
  exact ⟨_, _, _, _, _, _, rfl⟩

theorem SoftwareOnly.inMode (s : State) (m : HostMode) : SoftwareOnly s (s.inMode m) := ⟨_, _, _, _, _, _, rfl⟩

theorem SoftwareOnly.afterChoice (s : State) : SoftwareOnly s (afterChoice s) := by
  rw [afterChoice_eq]
  exact ⟨_, _, _, _, _, _, rfl⟩

theorem SoftwareOnly.hostIn (s : State) (h : List HostItem) : SoftwareOnly s { s with hostIn := h } :=
  ⟨_, _, _, _, _, _, rfl⟩

theorem SoftwareOnly.toYield (a t : Nat) (s : State) : SoftwareOnly s (toYield a t s) :=
  (SoftwareOnly.afterChoice s).trans (.inMode _ _)

theorem SoftwareOnly.txph {s u : State} (h : SoftwareOnly s u) : u.txph = s.txph := by
  obtain ⟨_, _, _, _, _, _, rfl⟩ := h
  rfl

theorem SoftwareOnly.tickPhase {s u : State} (h : SoftwareOnly s u) : u.tickPhase = s.tickPhase := by
  obtain ⟨_, _, _, _, _, _, rfl⟩ := h
  rfl

/-- The formats that HOST and its software execute. -/
inductive HostCoded : Coded → Prop where
  | command (c : Command) : HostCoded (.command c)
  | word (w : Word) : HostCoded (.word w)
  | keyWord (w : Word) : HostCoded (.keyWord w)

theorem hostCoded_qEmpty : HostCoded (encode .qEmpty) := .command _

theorem hostCoded_qRead : HostCoded (encode .qRead) := .command _

theorem hostCoded_pktValid (w : Word) : HostCoded (encode (.pktValid w)) := .command _

/-- HOST, free, executes one instruction, and its software moves on. -/
def HostExec (s t : State) : Prop :=
  s.txph = .idle ∧ ∃ (u v w : State) (c : Coded) (i : Instr),
    SoftwareOnly s u ∧ HostCoded c ∧ decode c = .ok i ∧ exec i u = .next v ∧ SoftwareOnly v w ∧ t = settle w

theorem settle_idle {s : State} (h : s.txph = .idle) : settle s = s := by
  rw [settle, if_neg (by rw [h]; simp)]

theorem decode_qEmpty : decode (encode .qEmpty) = .ok .qEmpty := rfl

theorem decode_qRead : decode (encode .qRead) = .ok .qRead := rfl

theorem decode_pktValid (w : Word) : decode (encode (.pktValid w)) = .ok (.pktValid w) := by
  rw [encode, commandOf, decode, decodeCommand_append]
  rfl

theorem readWord_txph (s : State) : (readWord s).txph = s.txph := by
  rcases readWord_cases s with ⟨-, h⟩ | ⟨-, h⟩ <;> rw [h]

theorem exec_qEmpty_txph {s t : State} (h : exec .qEmpty s = .next t) : t.txph = s.txph := by
  obtain ⟨-, h⟩ := answering_eq_next.1 h
  rw [h, answer_txph]

theorem exec_pktValid_txph {w : Word} {s t : State} (h : exec (.pktValid w) s = .next t) : t.txph = s.txph := by
  obtain ⟨-, h⟩ := answering_eq_next.1 h
  rw [h, answer_txph]

theorem exec_qRead_txph {s t : State} (h : exec .qRead s = .next t) : t.txph = s.txph := by
  obtain ⟨-, h⟩ := whenInitialised_eq_next.1 h
  cases h
  exact readWord_txph s

/-- A word in the dispatcher's hands always has a next state, the dispatcher's handling of it. -/
theorem exec_word {w : Word} {i : Instr} (h : decode (.word w) = .ok i) (s : State) :
    ∃ x, exec i s = .next (dispatchWord x s) := by
  have of : ∀ x (j : Instr), exec j s = .next (dispatchWord x s) → decodeWord w = .ok j →
      ∃ x, exec i s = .next (dispatchWord x s) := by
    intro x j hj hw
    have : i = j := Except.ok.inj ((show decodeWord w = .ok i from h).symm.trans hw)
    subst this
    exact ⟨x, hj⟩
  rcases decodeWord_ok w with h | h | h | h
  · exact of 0x49C1 .wordAlarmArmed rfl h.2
  · exact of 0x1615 .wordSensorZ1A rfl h.2
  · exact of 0xB08A .wordSensorZ1B rfl h.2
  · exact of w (.word w) rfl h

theorem exec_word_txph {w : Word} {i : Instr} {s t : State} (hd : decode (.word w) = .ok i) (h : exec i s = .next t) :
    t.txph = s.txph := by
  obtain ⟨x, hx⟩ := exec_word hd s
  rw [Host.Outcome.next.inj (h.symm.trans hx), dispatchWord_eq]

theorem hostExec_of {s u t : State} {c : Coded} {k : State → State} (hp : s.txph = .idle) (hu : SoftwareOnly s u)
    (hc : HostCoded c) (hk : ∀ v, SoftwareOnly v (k v))
    (hx : ∀ i v, decode c = .ok i → exec i u = .next v → v.txph = u.txph) (h : runCoded c k u = .next t) :
    HostExec s t := by
  obtain ⟨i, v, hd, he, e⟩ := runCoded_eq_next.1 h
  refine ⟨hp, u, v, k v, c, i, hu, hc, hd, he, hk v, ?_⟩
  rw [settle_idle, e]
  rw [(hk v).txph, hx i v hd he, hu.txph, hp]

/-- A step of `poll` runs now, or HOST passes. -/
theorem pacedTurn_cases {body : State → Result} {s t : State} (h : pacedTurn body s = .next t) :
    ∃ u, SoftwareOnly s u ∧ (t = passTurn u ∨ body u = .next t) := by
  unfold pacedTurn at h
  split at h
  · cases h
    exact ⟨_, .afterChoice s, .inl rfl⟩
  · exact ⟨_, .afterChoice s, .inr h⟩

theorem hostCall_cases {call : HostCall} {rest : List HostItem} {s t : State} (hp : s.txph = .idle)
    (h : hostCall call { s with hostIn := rest } = .next t) : SoftwareOnly s t ∨ HostExec s t := by
  unfold hostCall at h
  split at h
  · obtain ⟨i, v, hd, he, e⟩ := runCoded_eq_next.1 h
    exact .inr ⟨hp, _, v, v, _, i, .hostIn _ _, .command _, hd, he, .refl _, e⟩
  · split at h
    · cases h
      exact .inl ((SoftwareOnly.hostIn _ rest).trans (.inMode _ _))
    · cases h
  · cases h
    exact .inl ((SoftwareOnly.hostIn _ rest).trans (.inMode _ _))
  · split at h
    · cases h
      exact .inl ((SoftwareOnly.hostIn _ rest).trans (.inMode _ _))
    · cases h
  · cases h
    exact .inl ⟨_, _, _, _, _, _, rfl⟩
  · cases h
    exact .inl ⟨_, _, _, _, _, _, rfl⟩

theorem pollTestTurn_cases {a b : Nat} {s u t : State} (hp : s.txph = .idle) (hu : SoftwareOnly s u)
    (h : pollTestTurn a b u = .next t) : SoftwareOnly s t ∨ HostExec s t := by
  unfold pollTestTurn at h
  split at h
  · cases h
    exact .inl (hu.trans (.inMode _ _))
  · refine .inr (hostExec_of hp hu hostCoded_qEmpty (fun v => .inMode _ _) (fun i v hd he => ?_) h)
    rw [decode_qEmpty] at hd
    cases hd
    exact exec_qEmpty_txph he

theorem pollCheckTurn_cases {a b : Nat} {s u t : State} (hp : s.txph = .idle) (hu : SoftwareOnly s u)
    (h : pollCheckTurn a b u = .next t) : HostExec s t := by
  refine hostExec_of hp hu hostCoded_qEmpty (fun v => ?_) (fun i v hd he => ?_) h
  · split
    · exact .inMode _ _
    · exact .toYield _ _ _
  · rw [decode_qEmpty] at hd
    cases hd
    exact exec_qEmpty_txph he

theorem pollReadTurn_cases {a b : Nat} {s u t : State} (hp : s.txph = .idle) (hu : SoftwareOnly s u)
    (h : pollReadTurn a b u = .next t) : HostExec s t := by
  refine hostExec_of hp hu hostCoded_qRead (fun v => .inMode _ _) (fun i v hd he => ?_) h
  rw [decode_qRead] at hd
  cases hd
  exact exec_qRead_txph he

theorem pollValidTurn_cases {a b : Nat} {w : Word} {s u t : State} (hp : s.txph = .idle) (hu : SoftwareOnly s u)
    (h : pollValidTurn a b w u = .next t) : HostExec s t := by
  refine hostExec_of hp hu (hostCoded_pktValid w) (fun v => ?_) (fun i v hd he => ?_) h
  · split
    · exact .toYield _ _ _
    · exact .inMode _ _
  · rw [decode_pktValid] at hd
    cases hd
    exact exec_pktValid_txph he

/-- HOST's turn: it passes, waits for the next tick, moves its software on, or executes one instruction. -/
theorem hostTurn_cases {s t : State} (h : hostTurn s = .next t) :
    (∃ u, SoftwareOnly s u ∧ t = passTurn u) ∨ (∃ u, SoftwareOnly s u ∧ s.tickPhase ≠ .hostEarly ∧ t = newTick u) ∨
    (SoftwareOnly s t ∧ s.txph = .idle) ∨ HostExec s t := by
  have ofCall : ∀ {t : State}, s.txph = .idle → SoftwareOnly s t ∨ HostExec s t →
      (∃ u, SoftwareOnly s u ∧ t = passTurn u) ∨ (∃ u, SoftwareOnly s u ∧ s.tickPhase ≠ .hostEarly ∧ t = newTick u) ∨
      (SoftwareOnly s t ∧ s.txph = .idle) ∨ HostExec s t :=
    fun hp h => .inr (.inr (h.imp (⟨·, hp⟩) id))
  unfold hostTurn at h
  split at h
  case isFalse =>
    cases h
    exact .inl ⟨_, .refl _, rfl⟩
  rename_i hp
  split at h
  · unfold freeTurn at h
    split at h
    · cases h
      exact .inl ⟨_, .refl _, rfl⟩
    · split at h
      · cases h
        exact .inl ⟨_, .refl _, rfl⟩
      · rename_i hn
        cases h
        exact .inr (.inl ⟨_, .hostIn _ _, hn, rfl⟩)
    · split at h
      · exact ofCall hp (hostCall_cases hp h)
      · cases h
        exact .inl ⟨_, .refl _, rfl⟩
  · unfold sendingTurn at h
    split at h
    · cases h
      exact ofCall hp (.inl (.inMode _ _))
    · split at h
      · obtain ⟨i, v, hd, he, e⟩ := runCoded_eq_next.1 h
        exact ofCall hp (.inr ⟨hp, _, v, v, _, i, .inMode _ _, .keyWord _, hd, he, .refl _, e⟩)
      · cases h
        exact .inl ⟨_, .refl _, rfl⟩
  · obtain ⟨u, hu, e | e⟩ := pacedTurn_cases h
    · exact .inl ⟨u, hu, e⟩
    · exact ofCall hp (pollTestTurn_cases hp hu e)
  · obtain ⟨u, hu, e | e⟩ := pacedTurn_cases h
    · exact .inl ⟨u, hu, e⟩
    · exact ofCall hp (.inr (pollCheckTurn_cases hp hu e))
  · obtain ⟨u, hu, e | e⟩ := pacedTurn_cases h
    · exact .inl ⟨u, hu, e⟩
    · exact ofCall hp (.inr (pollReadTurn_cases hp hu e))
  · obtain ⟨u, hu, e | e⟩ := pacedTurn_cases h
    · exact .inl ⟨u, hu, e⟩
    · exact ofCall hp (.inr (pollValidTurn_cases hp hu e))
  · obtain ⟨u, hu, e | e⟩ := pacedTurn_cases h
    · exact .inl ⟨u, hu, e⟩
    · exact ofCall hp (.inr (hostExec_of hp hu (.word _) (fun v => .toYield _ _ _)
        (fun i v hd he => exec_word_txph hd he) e))
  · unfold pollYieldTurn at h
    split at h
    · cases h
      exact ofCall hp (.inl (.inMode _ _))
    · split at h
      · cases h
        exact .inl ⟨_, .refl _, rfl⟩
      · cases h
        exact .inl ⟨_, .inMode _ _, rfl⟩

end Sys2Proof.Machine
end

