-- ==== Sys2Proof/Tests/Slice0.lean ====
section
/-! SUPPORT. The author's own tests: each expected value is taken from spec/ (the vectors of 95_test_vectors.md, the
examples of the rules, or the encodings), and for every statement that has hypotheses a state and operands that meet
them all. -/

namespace Sys2Proof.Machine.Tests

/-! ### Small states -/

/-- An initialised machine at NOW = 100000, both lines active low, the receive line inactive, the queue empty. -/
def ready : State :=
  { State.reset with initd := true, rxen := true, now := 100000, rx := true, rxprev := false, ms := 0 }

/-- One word in the queue (V-D1's). -/
def oneWord : State := { ready with buf := [(0, 0x49C1)], tail := 1 }

/-- A full queue: 63 words from slot 0 on (V-Q3). -/
def fullQueue : State :=
  { ready with buf := (List.range 63).map fun k => (k, 0x1000), tail := 63 }

/-- The edge of the example of R103: ACC = 0x24E0, CNT = 15, e = 2540. -/
def lastBit : State := { ready with prevTs := 35400, acc := 0x24E0, cnt := 15, now := 37940, rx := false }

/-- The queue is full where the last bit of a word arrives (V-D4). -/
def lastBitFull : State := { lastBit with tail := 63 }

/-- TX_SEND 0x00CF was issued 24999 ticks ago on a silent bus. -/
def waiting : State := { ready with txph := .ctsWait, txw := 0x00CF, qt := 75001 }

/-- TX_SEND 0x00CF was issued 25000 ticks ago on a silent bus. -/
def quiet : State := { waiting with qt := 75000 }

/-- Emission of 0x00CF has started at this tick. -/
def emitting : State :=
  { ready with txph := .emit, txw := 0x00CF, txoe := true, rxen := false, tickPhase := .drive }

/-- Emission of 0x00CF, its last tick driven. -/
def lastTick : State := { emitting with txk := 63499, tickPhase := .transmit }

/-- HOST free in the first of its parts of a tick, with one call to issue. -/
def calling (c : HostCall) : State := { ready with tickPhase := .hostEarly, hostIn := [.issue false c] }

/-- HOST free in the second of its parts of a tick, with one call to issue there. -/
def callingLate (c : HostCall) : State := { ready with tickPhase := .hostLate, hostIn := [.issue true c] }

/-- A `poll` with a callback, in the second of HOST's parts of a tick, 10 ms after it began, one word in the queue. -/
def polling (m : HostMode) : State :=
  { oneWord with callback := true, tickPhase := .hostLate, ms := 10, hostMode := m, choiceIn := [0] }

/-- The result of an operation. -/
def resultOf : Result → Option Word
  | .next s => some s.result
  | .fault _ => none
  | .refused _ => none

/-- A property of the next state. -/
def nextHas (p : State → Bool) : Result → Bool
  | .next s => p s
  | .fault _ => false
  | .refused _ => false


/-! ### Well-formedness -/

/-- A plain WORD with the bits of a Code to Event row is ill-formed; any other is well-formed (R169). -/
theorem test_wellFormed_event_row : Instr.wellFormed (.word 0x49C1) = false := by decide
theorem test_wellFormed_second_row : Instr.wellFormed (.word 0x1615) = false := by decide
theorem test_wellFormed_third_row : Instr.wellFormed (.word 0xB08A) = false := by decide
theorem test_wellFormed_other_word : Instr.wellFormed (.word 0x00CF) = true := by decide

/-! ### Decoding: words written out from the spec's encodings -/

theorem test_decode_init : decode (.command (0b00001#5 ++ 0b0000000000000001#16)) = .ok (.init false true) := by decide
theorem test_decode_init_ignored_bits :
    decode (.command (0b00001#5 ++ 0b1111111111111110#16)) = .ok (.init true false) :=
  by decide
theorem test_decode_qPush : decode (.command (0b00010#5 ++ 0b0100100111000001#16)) = .ok (.qPush 0x49C1) := by decide
theorem test_decode_qRead : decode (.command (0b00011#5 ++ 0b0000000000000000#16)) = .ok (.qRead) := by decide
theorem test_decode_qRead_ignored_bits :
    decode (.command (0b00011#5 ++ 0b1111111111111111#16)) = .ok (.qRead) :=
  by decide
theorem test_decode_qEmpty : decode (.command (0b00100#5 ++ 0b0000000000000000#16)) = .ok (.qEmpty) := by decide
theorem test_decode_qFull : decode (.command (0b00101#5 ++ 0b0000000000000000#16)) = .ok (.qFull) := by decide
theorem test_decode_pktParity :
    decode (.command (0b00110#5 ++ 0b1011000010001010#16)) = .ok (.pktParity 0xB08A) :=
  by decide
theorem test_decode_pktId : decode (.command (0b00111#5 ++ 0b0100100111000001#16)) = .ok (.pktId 0x49C1) := by decide
theorem test_decode_pktData :
    decode (.command (0b01000#5 ++ 0b0100100111000001#16)) = .ok (.pktData 0x49C1) :=
  by decide
theorem test_decode_pktChk : decode (.command (0b01001#5 ++ 0b0001011000010101#16)) = .ok (.pktChk 0x1615) := by decide
theorem test_decode_pktValid :
    decode (.command (0b01010#5 ++ 0b0100100111000001#16)) = .ok (.pktValid 0x49C1) :=
  by decide
theorem test_decode_txSend : decode (.command (0b01011#5 ++ 0b0000000011001111#16)) = .ok (.txSend 0x00CF) := by decide
theorem test_decode_rdStatus : decode (.command (0b01100#5 ++ 0b0000000000000000#16)) = .ok (.rdStatus) := by decide
theorem test_decode_rdCfg : decode (.command (0b01101#5 ++ 0b0000000000000000#16)) = .ok (.rdCfg) := by decide
theorem test_decode_rdBitTime : decode (.command (0b10000#5 ++ 0b0000000000000000#16)) = .ok (.rdBitTime) := by decide
theorem test_decode_rdZeroTime : decode (.command (0b10001#5 ++ 0b0000000000000000#16)) = .ok (.rdZeroTime) := by decide
theorem test_decode_rdIdleTime : decode (.command (0b10010#5 ++ 0b0000000000000000#16)) = .ok (.rdIdleTime) := by decide
theorem test_decode_rdCtsTime : decode (.command (0b10011#5 ++ 0b0000000000000000#16)) = .ok (.rdCtsTime) := by decide
theorem test_decode_wrBitTime :
    decode (.command (0b10100#5 ++ 0b0000010100010100#16)) = .ok (.wrBitTime 1300) :=
  by decide
theorem test_decode_wrZeroTime :
    decode (.command (0b10101#5 ++ 0b0000011101101100#16)) = .ok (.wrZeroTime 1900) :=
  by decide
theorem test_decode_wrIdleTime :
    decode (.command (0b10110#5 ++ 0b0001011101110000#16)) = .ok (.wrIdleTime 6000) :=
  by decide
theorem test_decode_wrCtsTime :
    decode (.command (0b10111#5 ++ 0b0111010100110000#16)) = .ok (.wrCtsTime 30000) :=
  by decide
/-- R72. -/
theorem test_decode_reserved :
    ([0x00, 0x0E, 0x0F, 0x18, 0x1F] : List (BitVec 5)).all fun op =>
      decide (decode (.command (op ++ 0x1234#16)) = .error .reservedCode) :=
  by decide
theorem test_decode_rxEdge : decode (.event 0b110) = .ok .rxEdge := by decide
theorem test_decode_no_event :
    ([0b000, 0b001, 0b010, 0b011, 0b100, 0b101, 0b111] : List (BitVec 3)).all fun b =>
      decide (decode (.event b) = .error .noEvent) :=
  by decide
theorem test_decode_txsymStart : decode (.symbol1 false 1) = .ok .txsymStart := by decide
theorem test_decode_txsymBit0 : decode (.symbol3 0b100) = .ok .txsymBit0 := by decide
theorem test_decode_txsymBit1 : decode (.symbol3 0b110) = .ok .txsymBit1 := by decide
theorem test_decode_txsymStop : decode (.symbol1 true 1) = .ok .txsymStop := by decide
theorem test_decode_no_symbol : decode (.symbol3 0b101) = .error .notASymbol := by decide
/-- V-T1, frame(0x49C1). -/
theorem test_decode_txFrame :
    decode (.frame 0b11001101001001101001001101101101001001001001001101) = .ok (.txFrame 0x49C1) :=
  by decide
/-- V-T1's frame with chip 48 made active. -/
theorem test_decode_no_frame :
    decode (.frame 0b11001101001001101001001101101101001001001001001111) = .error .notAFrame :=
  by decide
theorem test_decode_word : decode (.word 0b0000000011001111) = .ok (.word 0x00CF) := by decide
theorem test_decode_wordAlarmArmed : decode (.word 0b0100100111000001) = .ok .wordAlarmArmed := by decide
theorem test_decode_wordSensorZ1A : decode (.word 0b0001011000010101) = .ok .wordSensorZ1A := by decide
theorem test_decode_wordSensorZ1B : decode (.word 0b1011000010001010) = .ok .wordSensorZ1B := by decide
theorem test_decode_wordZonaIn1 : decode (.keyWord 0b0000000011001111) = .ok .wordZonaIn1 := by decide
theorem test_decode_wordZonaIn2 : decode (.keyWord 0b0000000000000000) = .ok .wordZonaIn2 := by decide
theorem test_table_command : decodeTableWord 24 0x0B00CF = some (.txSend 0x00CF) := by decide
theorem test_table_command_extra_bits : decodeTableWord 24 0x2B00CF = none := by decide
theorem test_table_event : decodeTableWord 8 6 = some .rxEdge := by decide
theorem test_table_word : decodeTableWord 16 0x1234 = some (.word 0x1234) := by decide

/-! ### Packet codec (V of section 2.1) -/

theorem test_pktParity :
    resultOf (exec (.pktParity 0xB08A) ready) = some 1 ∧ resultOf (exec (.pktParity 0x7FFF) ready) = some 0 :=
  by decide
theorem test_pktId :
    resultOf (exec (.pktId 0x49C1) ready) = some 4 ∧ resultOf (exec (.pktId 0x8FFF) ready) = some 0 :=
  by decide
theorem test_pktData :
    resultOf (exec (.pktData 0x49C1) ready) = some 0x009C ∧ resultOf (exec (.pktData 0xF00F) ready) = some 0 :=
  by decide
theorem test_pktChk :
    resultOf (exec (.pktChk 0x1615) ready) = some 5 ∧ resultOf (exec (.pktChk 0xFFF0) ready) = some 0 :=
  by decide
theorem test_pktValid :
    resultOf (exec (.pktValid 0x49C1) ready) = some 1 ∧ resultOf (exec (.pktValid 0x49C0) ready) = some 0 :=
  by decide

/-! ### Word queue -/

/-- R90, example. -/
theorem test_qPush_example :
    nextHas (fun t => t.buf == [(0, 0x49C1)] && t.tail == 1 && t.result == 0) (exec (.qPush 0x49C1) ready) :=
  by decide
/-- V-Q3, the 64th push; V-Q4, a push into slot 63. -/
theorem test_qPush_full_and_wrap :
    nextHas (fun t => t.buf == fullQueue.buf && t.tail == 63) (exec (.qPush 0x103F) fullQueue) &&
      nextHas (fun t => t.buf.read 63 == some 0xBEEF && t.tail == 0 && full t)
        (exec (.qPush 0xBEEF) { fullQueue with head := 1 }) :=
  by decide
/-- R91, example. -/
theorem test_qRead_example :
    nextHas (fun t => t.result == 0x49C1 && t.head == 1 && empty t) (exec .qRead oneWord) :=
  by decide
/-- V-Q2, the fourth read. -/
theorem test_qRead_empty :
    nextHas (fun t => t.result == 0 && t.head == 3) (exec .qRead { ready with head := 3, tail := 3, result := 7 }) :=
  by decide
theorem test_qEmpty :
    resultOf (exec .qEmpty { ready with head := 5, tail := 5 }) = some 1 ∧ resultOf (exec .qEmpty oneWord) = some 0 :=
  by decide
/-- V-Q5. -/
theorem test_qFull :
    resultOf (exec .qFull { ready with head := 5, tail := 4 }) = some 1 ∧
      resultOf (exec .qFull { ready with head := 63, tail := 0 }) = some 0 :=
  by decide

/-! ### Decoder -/

/-- R103, example; V-D4. -/
theorem test_rxEdge_word :
    nextHas (fun t => t.buf == [(0, 0x49C1)] && t.tail == 1 && t.acc == 0 && t.cnt == 0 && t.prevTs == 37940)
        (exec .rxEdge lastBit) &&
      nextHas (fun t => t.buf == [] && t.tail == 63 && t.acc == 0 && t.cnt == 0 && t.prevTs == 37940)
        (exec .rxEdge lastBitFull) :=
  by decide
/-- V-D2: e = 2000, 2001, 5000 and 5001; V-D5: across a wrap of NOW. -/
theorem test_rxEdge_boundaries :
    nextHas (fun t => t.acc == 0 && t.cnt == 1) (exec .rxEdge { ready with prevTs := 98000 }) &&
      nextHas (fun t => t.acc == 1 && t.cnt == 1) (exec .rxEdge { ready with prevTs := 97999 }) &&
      nextHas (fun t => t.acc == 1 && t.cnt == 1) (exec .rxEdge { ready with prevTs := 95000 }) &&
      nextHas (fun t => t.acc == 0 && t.cnt == 0) (exec .rxEdge { ready with prevTs := 94999 }) &&
      nextHas (fun t => t.cnt == 1 && t.acc == 0) (exec .rxEdge { ready with prevTs := 0xFFFFFF00, now := 0x000003F6 }) :=
  by decide
/-- V-D9. -/
theorem test_edge_lost_while_off :
    nextHas (fun t => t.prevTs == 0 && t.cnt == 0 && t.rxprev)
      (step { ready with tickPhase := .edge, rx := false, rxen := false }) :=
  by decide

/-! ### Transmitter -/

/-- V-T2. -/
theorem test_txSend :
    nextHas (fun t => t.txw == 0x00CF && t.qt == 100000 && t.txph == .ctsWait) (exec (.txSend 0x00CF) ready) :=
  by decide
/-- V-T2: T0 = Ts + 25000, not before; V-T5: the line active at the tick that would have ended the wait. -/
theorem test_bus_free :
    nextHas (fun t => t.txph == .emit && !t.rxen && t.txoe && t.txk == 0) (step quiet) &&
      nextHas (fun t => t.txph == .ctsWait && t.rxen && !t.txoe) (step waiting) &&
      nextHas (fun t => t.txph == .ctsWait && t.qt == 100000) (step { quiet with rx := false }) :=
  by decide
theorem test_txFrame :
    nextHas (fun t => t.txw == 0x49C1 && t.txph == .emit && t.txoe && !t.rxen) (exec (.txFrame 0x49C1) ready) :=
  by decide
/-- V-T3, k = 1269. -/
theorem test_txsymStart :
    nextHas (fun t => t.txout == false) (exec .txsymStart { emitting with txout := true }) :=
  by decide
/-- V-T3, k = 62230. -/
theorem test_txsymStop :
    nextHas (fun t => t.txout == false) (exec .txsymStop { emitting with txk := 62230, txout := true }) :=
  by decide
/-- V-T3, k = 2540: the second chip of a 0. -/
theorem test_txsymBit0 : nextHas (fun t => t.txout == true) (exec .txsymBit0 { emitting with txk := 2540 }) := by decide
/-- V-T3, k = 33020: the second chip of a 1. -/
theorem test_txsymBit1 :
    nextHas (fun t => t.txout == false) (exec .txsymBit1 { emitting with txk := 33020, txout := true }) :=
  by decide
/-- V-T3, the whole list. -/
theorem test_drive_levels :
    ([(0, false), (1269, false), (1270, false), (2539, false), (2540, true), (5079, true), (5080, false),
      (33020, false), (62229, true), (62230, false), (63499, false)] : List (BitVec 22 × Bool)).all fun p =>
      nextHas (fun t => t.txout == p.2) (step { emitting with txk := p.1 }) :=
  by decide
/-- V-T2: Te. -/
theorem test_emission_ends :
    nextHas (fun t => t.txph == .idle && t.txk == 63500 && !t.txoe && t.rxen && t.result == 0) (step lastTick) :=
  by decide

/-! ### Initialise and timing registers (section 2.5) -/

theorem test_init :
    nextHas (fun t => t.rxen && t.initd && statusView t == 0x0019 && cfgView t == 0 && t.rxprev)
      (exec (.init true true) { State.reset with rx := false }) &&
      nextHas (fun t => cfgView t == 0x0003) (exec (.init false false) State.reset) :=
  by decide
theorem test_init_second : exec (.init true true) ready = .refused .secondInit := rfl
theorem test_rdCfg : resultOf (exec .rdCfg { ready with txact := true }) = some 0x0002 := by decide
theorem test_rdStatus :
    resultOf (exec .rdStatus ready) = some 0x0019 ∧ resultOf (exec .rdStatus fullQueue) = some 0x001A :=
  by decide
theorem test_rdBitTime : resultOf (exec .rdBitTime ready) = some 0x04F6 := by decide
theorem test_rdZeroTime : resultOf (exec .rdZeroTime ready) = some 0x07D0 := by decide
theorem test_rdIdleTime : resultOf (exec .rdIdleTime ready) = some 0x1388 := by decide
theorem test_rdCtsTime : resultOf (exec .rdCtsTime ready) = some 0x61A8 := by decide
theorem test_wrBitTime : nextHas (fun t => t.bitTime == 1001) (exec (.wrBitTime 1001) ready) := by decide
theorem test_wrBitTime_refused : exec (.wrBitTime 1000) ready = .refused .illFormedConfiguration := rfl
theorem test_wrZeroTime : nextHas (fun t => t.zeroTime == 2539) (exec (.wrZeroTime 2539) ready) := by decide
theorem test_wrZeroTime_refused : exec (.wrZeroTime 2540) ready = .refused .illFormedConfiguration := rfl
theorem test_wrIdleTime : nextHas (fun t => t.idleTime == 6000) (exec (.wrIdleTime 6000) ready) := by decide
theorem test_wrCtsTime : nextHas (fun t => t.ctsTime == 0x7530) (exec (.wrCtsTime 30000) ready) := by decide
theorem test_before_init : exec .rdStatus State.reset = .refused .beforeInit := rfl

/-! ### Words in the hands of the host software -/

/-- V-D8: dropped. -/
theorem test_word_invalid : nextHas (fun t => t.events == []) (exec (.word 0x49C0) ready) := by decide
/-- S5. -/
theorem test_wordAlarmArmed : nextHas (fun t => t.events == [.alarmArmed]) (exec .wordAlarmArmed ready) := rfl
/-- S6. -/
theorem test_wordSensorZ1A : nextHas (fun t => t.events == [.sensorZ1]) (exec .wordSensorZ1A ready) := rfl
/-- S6. -/
theorem test_wordSensorZ1B : nextHas (fun t => t.events == [.sensorZ1]) (exec .wordSensorZ1B ready) := rfl
/-- S7. -/
theorem test_wordZonaIn1 :
    nextHas (fun t => t.txw == 0x00CF && t.txph == .ctsWait) (exec .wordZonaIn1 ready) :=
  by decide
/-- S7. -/
theorem test_wordZonaIn2 :
    nextHas (fun t => t.txw == 0x0000 && t.txph == .ctsWait) (exec .wordZonaIn2 { ready with txw := 1 }) :=
  by decide
theorem test_zonaIn_words : keyTable .zonaIn = [0x00CF, 0x0000] := rfl

/-! ### Where the next step fetches -/

theorem test_fetch_init : nextHas (fun t => t.initd) (step (State.reset.withFetchWord 24 0x010003)) := by decide
theorem test_fetch_rxEdge :
    nextHas (fun t => t.prevTs == t.now && t.tickPhase == .hostLate) (step (ready.withFetchWord 8 6)) :=
  by decide
theorem test_fetch_txFrame :
    nextHas (fun t => t.txw == 0x49C1 && t.txph == .emit) (step (ready.withFetchWord 56 0x3349A4DB4924D)) :=
  by decide
theorem test_fetch_txsymStart :
    nextHas (fun t => t.txout == ready.txact && t.tickPhase == .edge) (step (ready.withFetchWord 8 1)) :=
  by decide
theorem test_fetch_wordAlarmArmed :
    nextHas (fun t => t.events == [.alarmArmed]) (step (ready.withFetchWord 16 0x49C1)) :=
  rfl

/-! ### Witnesses: the hypotheses of the statements hold together somewhere -/

/-- An edge of class IDLE, e = 5001, with a partial word. -/
def idleNow : State := { ready with prevTs := 94999, acc := 0x0003, cnt := 2 }

/-- An edge at the boundary of class BIT1, e = 5000, that brings the fifteenth bit. -/
def bitNow : State := { ready with prevTs := 95000, cnt := 14 }

/-- The edge detector's part of a tick at a qualifying edge. -/
def edgeNow : State := { lastBit with tickPhase := .edge }

/-- The same part of a tick without an edge. -/
def noEdgeNow : State := { ready with tickPhase := .edge }

/-- The last tick of the stop marker, about to be driven. -/
def lastDrive : State := { emitting with txk := 63499 }

/-- The tick after the first of an emission. -/
def secondTick : State := { emitting with txk := 0, tickPhase := .transmit }

/-- Emission of 0x00CF at its first tick, the pin driven. -/
def driven : State := { emitting with tickPhase := .edge }

/-- A wait that has just begun, two ticks long, on a bus scripted silent for both. -/
def silent : State :=
  { ready with txph := .ctsWait, qt := 100000, ctsTime := 2, envIn := [⟨true, 0⟩, ⟨true, 0⟩] }

/-- HOST in the second of its parts of a tick, blocked. -/
def blockedLate : State := { waiting with tickPhase := .hostLate }

/-- HOST in the second of its parts of a tick, with nothing to issue. -/
def tickOver : State := { ready with tickPhase := .hostLate, envIn := [⟨false, 1⟩] }

/-- A word in the dispatcher's hands. -/
def handling : State := { ready with tickPhase := .hostEarly, hostMode := .pollHandle 0 0 0x49C1, choiceIn := [0] }

/-- `sendKey` with its first word to send. -/
def sending : State := { ready with tickPhase := .hostEarly, hostMode := .sending [0x00CF, 0x0000] }

/-- For PacketFieldsAreExtracted, PktValidIsEvenParity, FieldsRebuildTheWord, QueuePredicatesReadTheIndices,
QueueOperationsMoveCount, TxSendStartsTheWait, RdCfgReturnsThePolarities, TimingReadsReturnTheRegisters,
WrIdleAndCtsTimeAcceptEveryValue and ZonaInSendsItsTwoWords. -/
theorem witness_initialised : ∃ s : State, s.initd = true := ⟨ready, rfl⟩
theorem witness_FlippedBitsChangeValidity_even :
    ∃ (s : State) (m : Word), s.initd = true ∧ onesOf m % 2 = 0 :=
  ⟨ready, 0xFFFF, by decide⟩
theorem witness_FlippedBitsChangeValidity_odd :
    ∃ (s : State) (m : Word), s.initd = true ∧ onesOf m % 2 = 1 :=
  ⟨ready, 0x7FFF, by decide⟩
theorem witness_FlippedBitsChangeValidity_one :
    ∃ (s : State) (m : Word) (i : Nat), s.initd = true ∧ i < 16 ∧ m = 1#16 <<< i :=
  ⟨ready, 0x8000, 15, by decide⟩
theorem witness_QPushStoresAtTailOrDrops_drops :
    ∃ s : State, s.initd = true ∧ (s.tail.toNat + 1) % 64 = s.head.toNat :=
  ⟨fullQueue, by decide⟩
/-- At TAIL = 63. -/
theorem witness_QPushStoresAtTailOrDrops_stores :
    ∃ (s : State) (a : Nat), s.initd = true ∧ (s.tail.toNat + 1) % 64 ≠ s.head.toNat ∧ a ≠ s.tail.toNat :=
  ⟨{ fullQueue with head := 1 }, 0, by decide⟩
theorem witness_QReadTakesTheSlotAtHead_empty : ∃ s : State, s.initd = true ∧ s.head = s.tail := ⟨ready, by decide⟩
theorem witness_QReadTakesTheSlotAtHead_word :
    ∃ (s : State) (w : Word), s.initd = true ∧ s.head ≠ s.tail ∧ s.buf.read s.head.toNat = some w :=
  ⟨oneWord, 0x49C1, by decide⟩
theorem witness_QueueIsFifoAndOverflowIsLossy : ∃ s : State, s.initd = true ∧ empty s = true := ⟨ready, by decide⟩
theorem witness_SeenNotEmptyStaysNotEmpty : ∃ s : State, empty s = false := ⟨oneWord, by decide⟩
theorem witness_RxEdgeClassifiesAndShifts_idle :
    ∃ s : State, s.cnt.toNat ≤ 15 ∧ s.idleTime.toNat < (2 ^ 32 + s.now.toNat - s.prevTs.toNat) % 2 ^ 32 :=
  ⟨idleNow, by decide⟩
theorem witness_RxEdgeClassifiesAndShifts_bit :
    ∃ s : State, s.cnt.toNat ≤ 15 ∧ (2 ^ 32 + s.now.toNat - s.prevTs.toNat) % 2 ^ 32 ≤ s.idleTime.toNat ∧ s.cnt.toNat < 15 :=
  ⟨bitNow, by decide⟩
theorem witness_RxEdgeClassifiesAndShifts_dropped :
    ∃ s : State, s.cnt.toNat ≤ 15 ∧ (2 ^ 32 + s.now.toNat - s.prevTs.toNat) % 2 ^ 32 ≤ s.idleTime.toNat ∧ s.cnt.toNat = 15 ∧
      (s.tail.toNat + 1) % 64 = s.head.toNat :=
  ⟨lastBitFull, by decide⟩
theorem witness_RxEdgeClassifiesAndShifts_stored :
    ∃ s : State, s.cnt.toNat ≤ 15 ∧ (2 ^ 32 + s.now.toNat - s.prevTs.toNat) % 2 ^ 32 ≤ s.idleTime.toNat ∧ s.cnt.toNat = 15 ∧
      (s.tail.toNat + 1) % 64 ≠ s.head.toNat :=
  ⟨lastBit, by decide⟩
/-- The intervals of 0x49C1 at the boundaries of their classes: 2000 for a 0, 2001 and 5000 for a 1 (R104, R114). -/
def boundaryIntervals : List Stamp :=
  [2000, 2001, 2000, 2000, 5000, 2000, 2, 2001, 5000, 2540, 0, 2000, 1270, 2000, 2000, 2001]

theorem witness_SeventeenEdgesDeliverTheWord_stored :
    ∃ (s : State) (w : Word) (gap : Stamp) (es : List Stamp),
      s.idleTime.toNat < gap.toNat ∧ wordIntervals s w es = true ∧ full s = false :=
  ⟨ready, 0x49C1, 5001, boundaryIntervals, by decide⟩
theorem witness_SeventeenEdgesDeliverTheWord_dropped :
    ∃ (s : State) (w : Word) (gap : Stamp) (es : List Stamp),
      s.idleTime.toNat < gap.toNat ∧ wordIntervals s w es = true ∧ full s = true :=
  ⟨fullQueue, 0x49C1, 5001, boundaryIntervals, by decide⟩
theorem witness_EdgeDetectorGatesTheDecoder_edge :
    ∃ s : State, s.tickPhase = .edge ∧ (s.rxen = true ∧ s.rx = s.rxact ∧ s.rxprev = false) :=
  ⟨edgeNow, by decide⟩
theorem witness_EdgeDetectorGatesTheDecoder_none :
    ∃ s : State, s.tickPhase = .edge ∧ ¬ (s.rxen = true ∧ s.rx = s.rxact ∧ s.rxprev = false) :=
  ⟨noEdgeNow, by decide⟩
theorem witness_FrameIsStartCellsStop : ∃ c : Nat, c < 50 := ⟨49, by decide⟩
theorem witness_RisingChipsDoNotDependOnTheWord : ∃ c : Nat, 0 < c ∧ c < 50 := ⟨49, by decide⟩
theorem witness_BusFreeDetectionTick_free :
    ∃ s : State, s.tickPhase = .transmit ∧ s.txph = .ctsWait ∧
      s.ctsTime.toNat ≤ (2 ^ 32 + s.now.toNat - (if s.rx = s.rxact then s.now else s.qt).toNat) % 2 ^ 32 :=
  ⟨quiet, by decide⟩
theorem witness_BusFreeDetectionTick_busy :
    ∃ s : State, s.tickPhase = .transmit ∧ s.txph = .ctsWait ∧
      (2 ^ 32 + s.now.toNat - (if s.rx = s.rxact then s.now else s.qt).toNat) % 2 ^ 32 < s.ctsTime.toNat :=
  ⟨waiting, by decide⟩
theorem witness_EmissionDrivesTheChip :
    ∃ s : State, s.tickPhase = .drive ∧ s.txph = .emit ∧ s.txk.toNat < 50 * s.bitTime.toNat :=
  ⟨lastDrive, by decide⟩
theorem witness_EmissionAdvancesAndEnds_goes_on :
    ∃ s : State, s.tickPhase = .transmit ∧ s.txph = .emit ∧ s.txk.toNat < 50 * s.bitTime.toNat ∧
      s.txk.toNat + 1 < 50 * s.bitTime.toNat :=
  ⟨secondTick, by decide⟩
theorem witness_EmissionAdvancesAndEnds_ends :
    ∃ s : State, s.tickPhase = .transmit ∧ s.txph = .emit ∧ s.txk.toNat < 50 * s.bitTime.toNat ∧
      s.txk.toNat + 1 = 50 * s.bitTime.toNat :=
  ⟨lastTick, by decide⟩
theorem witness_EmissionRunsTheWholeFrame :
    ∃ (s : State) (k : Nat), Inv s ∧ s.tickPhase = .drive ∧ s.txph = .emit ∧ s.txk = 0 ∧ k < 50 * s.bitTime.toNat :=
  ⟨emitting, 63499, by decide⟩
theorem witness_SilentBusStartsAfterCtsTime :
    ∃ s : State, s.tickPhase = .transmit ∧ s.txph = .ctsWait ∧ s.qt = s.now ∧ s.rx ≠ s.rxact ∧
      s.ctsTime.toNat ≤ s.envIn.length ∧ (∀ e ∈ s.envIn, e.rx ≠ s.rxact) :=
  ⟨silent, by decide⟩
theorem witness_PhaseChangesAreThreeKinds_issue :
    ∃ s t : State, step s = .next t ∧ t.txph ≠ s.txph :=
  ⟨calling (.op 0x0B00CF), _, rfl, by decide⟩
theorem witness_PhaseChangesAreThreeKinds_start :
    ∃ s t : State, step s = .next t ∧ t.txph ≠ s.txph :=
  ⟨quiet, _, rfl, by decide⟩
theorem witness_PhaseChangesAreThreeKinds_end :
    ∃ s t : State, step s = .next t ∧ t.txph ≠ s.txph :=
  ⟨lastTick, _, rfl, by decide⟩
theorem witness_TransmitterLeavesTheReceiveSide_transmit :
    ∃ s t : State, s.tickPhase = .transmit ∧ step s = .next t :=
  ⟨quiet, _, rfl, rfl⟩
theorem witness_TransmitterLeavesTheReceiveSide_drive :
    ∃ s t : State, s.tickPhase = .drive ∧ step s = .next t :=
  ⟨emitting, _, rfl, rfl⟩
theorem witness_PinIsReleasedOutsideEmit_released : ∃ s : State, Inv s ∧ s.txph ≠ .emit := ⟨ready, by decide⟩
theorem witness_PinIsReleasedOutsideEmit_driven :
    ∃ s : State, Inv s ∧ s.txph = .emit ∧ s.tickPhase ≠ .drive :=
  ⟨driven, by decide⟩
theorem witness_InitSetsPolarityAndEnables : ∃ s : State, s.initd = false := ⟨State.reset, rfl⟩
theorem witness_InitIsFirstAndOnce_second :
    ∃ (s : State) (c : Command) (i : Instr), decode (.command c) = .ok i ∧ (∃ t r, i = .init t r) ∧ s.initd = true :=
  ⟨ready, 0x010003, .init true true, rfl, ⟨true, true, rfl⟩, rfl⟩
theorem witness_InitIsFirstAndOnce_before :
    ∃ (s : State) (c : Command) (i : Instr), decode (.command c) = .ok i ∧ (∀ t r, i ≠ .init t r) ∧ s.initd = false :=
  ⟨State.reset, 0x030000, .qRead, rfl, fun _ _ h => (nomatch h), rfl⟩
theorem witness_RdStatusReturnsTheView_empty :
    ∃ s : State, s.initd = true ∧ Inv s ∧ s.txph = .idle ∧ count s = 0 :=
  ⟨ready, by decide⟩
theorem witness_RdStatusReturnsTheView_full :
    ∃ s : State, s.initd = true ∧ Inv s ∧ s.txph = .idle ∧ count s = 63 :=
  ⟨fullQueue, by decide⟩
theorem witness_RdStatusReturnsTheView_between :
    ∃ s : State, s.initd = true ∧ Inv s ∧ s.txph = .idle ∧ count s = 1 :=
  ⟨oneWord, by decide⟩
theorem witness_WrBitTimeKeepsTheConstraint_writes :
    ∃ (s : State) (v : Word), s.initd = true ∧ 1 ≤ v.toNat ∧ s.zeroTime.toNat < 2 * v.toNat :=
  ⟨ready, 1001, by decide⟩
theorem witness_WrBitTimeKeepsTheConstraint_refused :
    ∃ (s : State) (v : Word), s.initd = true ∧ ¬ (1 ≤ v.toNat ∧ s.zeroTime.toNat < 2 * v.toNat) :=
  ⟨ready, 1000, by decide⟩
theorem witness_WrZeroTimeKeepsTheConstraint_writes :
    ∃ (s : State) (v : Word), s.initd = true ∧ v.toNat < 2 * s.bitTime.toNat :=
  ⟨ready, 2539, by decide⟩
theorem witness_WrZeroTimeKeepsTheConstraint_refused :
    ∃ (s : State) (v : Word), s.initd = true ∧ 2 * s.bitTime.toNat ≤ v.toNat :=
  ⟨ready, 2540, by decide⟩
theorem witness_ConfigurationStaysWellFormed :
    ∃ (i : Instr) (s t : State), ConfigInv s ∧ exec i s = .next t :=
  ⟨.wrBitTime 1001, ready, _, by decide, rfl⟩
/-- At the ends of the three ranges. -/
theorem witness_ReservedCodesAreRefused_codes :
    ([0x000000, 0x00FFFF, 0x0E0000, 0x0FFFFF, 0x180000, 0x1FFFFF] : List Command).all fun c =>
      decide (decode (.command c) = .error .reservedCode) :=
  by decide
theorem witness_ReservedCodesAreRefused_step :
    ∃ (s u : State) (c : Command) (rest : List HostItem), decode (.command c) = .error .reservedCode ∧
      s.tickPhase = .hostEarly ∧ s.txph = .idle ∧ s.hostMode = .free ∧ s.hostIn = .issue false (.op c) :: rest ∧
      u.tickPhase = .hostLate ∧ u.txph = .idle ∧ u.hostMode = .free ∧ u.hostIn = .issue true (.op c) :: rest :=
  ⟨calling (.op 0x180000), callingLate (.op 0x180000), 0x180000, [],
    by decide⟩
theorem witness_DecodeInvertsEncode : ∃ i : Instr, i.wellFormed = true := ⟨.word 0xFFFF, by decide⟩
theorem witness_StepRunsTheHostCommand_runs :
    ∃ (s t : State) (c : Command) (i : Instr) (rest : List HostItem),
      s.tickPhase = .hostEarly ∧ s.txph = .idle ∧ s.hostMode = .free ∧ s.hostIn = .issue false (.op c) :: rest ∧
      decode (.command c) = .ok i ∧ exec i { s with hostIn := rest } = .next t :=
  ⟨calling (.op 0x020001), _, 0x020001, .qPush 1, [], rfl, rfl, rfl, rfl, rfl, rfl⟩
theorem witness_StepRunsTheHostCommand_late :
    ∃ (s t : State) (c : Command) (i : Instr) (rest : List HostItem),
      s.tickPhase = .hostEarly ∧ s.txph = .idle ∧ s.hostMode = .free ∧ s.hostIn = .issue true (.op c) :: rest ∧
      decode (.command c) = .ok i ∧ (∃ w, i = .txSend w) ∧ exec i { s with hostIn := rest } = .next t :=
  ⟨{ callingLate (.op 0x0B00CF) with tickPhase := .hostEarly }, _, 0x0B00CF, .txSend 0x00CF, [], rfl, rfl, rfl, rfl, rfl,
    ⟨_, rfl⟩, rfl⟩
theorem witness_StepRunsTheHostCommand_refused :
    ∃ (s : State) (c : Command) (i : Instr) (rest : List HostItem) (r : Refusal),
      s.tickPhase = .hostEarly ∧ s.txph = .idle ∧ s.hostMode = .free ∧ s.hostIn = .issue false (.op c) :: rest ∧
      decode (.command c) = .ok i ∧ exec i { s with hostIn := rest } = .refused r :=
  ⟨calling (.op 0x010003), 0x010003, .init true true, [], _, rfl, rfl, rfl, rfl, rfl, rfl⟩
theorem witness_StepRunsTheLateHostCommand_runs :
    ∃ (s t : State) (c : Command) (i : Instr) (rest : List HostItem),
      s.tickPhase = .hostLate ∧ s.txph = .idle ∧ s.hostMode = .free ∧ s.hostIn = .issue true (.op c) :: rest ∧
      decode (.command c) = .ok i ∧ (∀ t r, i ≠ .init t r) ∧ (∀ w, i ≠ .txSend w) ∧
      exec i { s with hostIn := rest } = .next t :=
  ⟨callingLate (.op 0x040000), _, 0x040000, .qEmpty, [], rfl, rfl, rfl, rfl, rfl, fun _ _ h => (nomatch h), fun _ h => (nomatch h), rfl⟩
theorem witness_StepRunsTheLateHostCommand_refused :
    ∃ (s : State) (c : Command) (i : Instr) (rest : List HostItem) (r : Refusal),
      s.tickPhase = .hostLate ∧ s.txph = .idle ∧ s.hostMode = .free ∧ s.hostIn = .issue true (.op c) :: rest ∧
      decode (.command c) = .ok i ∧ (∀ t r, i ≠ .init t r) ∧ (∀ w, i ≠ .txSend w) ∧
      exec i { s with hostIn := rest } = .refused r :=
  ⟨callingLate (.op 0x140000), 0x140000, .wrBitTime 0, [], _, rfl, rfl, rfl, rfl, rfl, fun _ _ h => (nomatch h), fun _ h => (nomatch h), rfl⟩
theorem witness_StepRunsTheLateHostCommand_waits :
    ∃ (s : State) (c : Command) (i : Instr) (rest : List HostItem),
      s.tickPhase = .hostEarly ∧ s.txph = .idle ∧ s.hostMode = .free ∧ s.hostIn = .issue true (.op c) :: rest ∧
      decode (.command c) = .ok i ∧ (∀ t r, i ≠ .init t r) ∧ ∀ w, i ≠ .txSend w :=
  ⟨{ callingLate (.op 0x040000) with tickPhase := .hostEarly }, 0x040000, .qEmpty, [], rfl, rfl, rfl, rfl, rfl,
    fun _ _ h => (nomatch h), fun _ h => (nomatch h)⟩
theorem witness_StepRunsTheLateHostCommand_puts_off :
    ∃ (s : State) (c : Command) (i : Instr) (rest : List HostItem),
      s.tickPhase = .hostLate ∧ s.txph = .idle ∧ s.hostMode = .free ∧ s.hostIn = .issue true (.op c) :: rest ∧
      decode (.command c) = .ok i ∧ ∃ w, i = .txSend w :=
  ⟨callingLate (.op 0x0B00CF), 0x0B00CF, .txSend 0x00CF, [], rfl, rfl, rfl, rfl, rfl, _, rfl⟩
theorem witness_StepRunsTheOtherFormats_symbol :
    ∃ (s : State) (i : Instr), s.tickPhase = .drive ∧ s.txph = .emit ∧
      decode (symbolAt s.txw (chipIndex s)) = .ok i :=
  ⟨lastDrive, .txsymStop, by decide⟩
theorem witness_StepRunsTheOtherFormats_frame :
    ∃ (s : State) (i : Instr), s.tickPhase = .transmit ∧ s.txph = .ctsWait ∧
      busFree (sampleLine s) = true ∧ decode (.frame (frameBits s.txw)) = .ok i :=
  ⟨quiet, .txFrame 0x00CF, by decide⟩
theorem witness_StepRunsTheOtherFormats_word :
    ∃ (s : State) (i : Instr) (a b : Nat) (w : Word), s.tickPhase = .hostEarly ∧ s.txph = .idle ∧
      s.hostMode = .pollHandle a b w ∧ nextChoice s % 2 = 0 ∧ decode (.word w) = .ok i :=
  ⟨handling, .wordAlarmArmed, 0, 0, 0x49C1, by decide⟩
theorem witness_StepRunsTheOtherFormats_late_word :
    ∃ (s : State) (i : Instr) (a b : Nat) (w : Word), s.tickPhase = .hostLate ∧ s.txph = .idle ∧
      s.hostMode = .pollHandle a b w ∧ nextChoice s % 2 = 0 ∧ decode (.word w) = .ok i :=
  ⟨{ handling with tickPhase := .hostLate }, .wordAlarmArmed, 0, 0, 0x49C1, by decide⟩
theorem witness_StepRunsTheOtherFormats_keyWord :
    ∃ (s : State) (i : Instr) (w : Word) (ws : List Word), s.tickPhase = .hostEarly ∧ s.txph = .idle ∧
      s.hostMode = .sending (w :: ws) ∧ s.initd = true ∧ decode (.keyWord w) = .ok i :=
  ⟨sending, .wordZonaIn1, 0x00CF, [0x0000], by decide⟩
theorem witness_HostIsBlockedDuringTransmission_late :
    ∃ s : State, s.txph ≠ .idle ∧ s.tickPhase = .hostLate :=
  ⟨blockedLate, by decide⟩
theorem witness_HostIsBlockedDuringTransmission_early :
    ∃ s : State, s.txph ≠ .idle ∧ s.tickPhase = .hostEarly :=
  ⟨{ blockedLate with tickPhase := .hostEarly }, by decide⟩
theorem witness_TimeAdvancesByOneTick_not_due :
    ∃ (s : State) (call : HostCall) (rest : List HostItem), s.tickPhase = .hostLate ∧ s.hostMode = .free ∧
      s.hostIn = .issue false call :: rest :=
  ⟨{ calling (.op 0x040000) with tickPhase := .hostLate }, .op 0x040000, [], by decide⟩
theorem witness_TimeAdvancesByOneTick :
    ∃ (s : State) (d : EnvTick) (ds : List EnvTick), s.tickPhase = .hostLate ∧ s.hostMode = .free ∧ s.hostIn = [] ∧
      s.envIn = d :: ds :=
  ⟨tickOver, ⟨false, 1⟩, [], by decide⟩
theorem witness_DecoderRegistersHaveOneWriter_exec :
    ∃ (i : Instr) (s t : State), i ≠ .rxEdge ∧ exec i s = .next t :=
  ⟨.qRead, oneWord, _, by decide, rfl⟩
theorem witness_DecoderRegistersHaveOneWriter_step :
    ∃ s t : State, s.tickPhase ≠ .edge ∧ step s = .next t :=
  ⟨lastTick, _, by decide, rfl⟩
theorem witness_QueueIndicesHaveOneWriter_head :
    ∃ (i : Instr) (s t : State), exec i s = .next t ∧ t.head ≠ s.head :=
  ⟨.qRead, oneWord, _, rfl, by decide⟩
theorem witness_QueueIndicesHaveOneWriter_tail :
    ∃ (i : Instr) (s t : State), exec i s = .next t ∧ t.tail ≠ s.tail :=
  ⟨.qPush 1, ready, _, rfl, by decide⟩
theorem witness_QueueIndicesHaveOneWriter_slot :
    ∃ (i : Instr) (s t : State), exec i s = .next t ∧ t.buf ≠ s.buf :=
  ⟨.rxEdge, lastBit, _, rfl, by decide⟩
theorem witness_ConfigurationHasOneWriter_polarity :
    ∃ (i : Instr) (s t : State), exec i s = .next t ∧ t.txact ≠ s.txact :=
  ⟨.init false true, State.reset, _, rfl, by decide⟩
theorem witness_ConfigurationHasOneWriter_bitTime :
    ∃ (i : Instr) (s t : State), exec i s = .next t ∧ t.bitTime ≠ s.bitTime :=
  ⟨.wrBitTime 1300, ready, _, rfl, by decide⟩
theorem witness_ConfigurationHasOneWriter_zeroTime :
    ∃ (i : Instr) (s t : State), exec i s = .next t ∧ t.zeroTime ≠ s.zeroTime :=
  ⟨.wrZeroTime 1900, ready, _, rfl, by decide⟩
theorem witness_ConfigurationHasOneWriter_idleTime :
    ∃ (i : Instr) (s t : State), exec i s = .next t ∧ t.idleTime ≠ s.idleTime :=
  ⟨.wrIdleTime 6000, ready, _, rfl, by decide⟩
theorem witness_ConfigurationHasOneWriter_ctsTime :
    ∃ (i : Instr) (s t : State), exec i s = .next t ∧ t.ctsTime ≠ s.ctsTime :=
  ⟨.wrCtsTime 0, ready, _, rfl, by decide⟩
theorem witness_ConfigurationHasOneWriter_step :
    ∃ s t : State, step s = .next t ∧ s.initd = true :=
  ⟨ready, _, rfl, rfl⟩
theorem witness_OnlyTheHostIsRefused :
    ∃ s : State, s.tickPhase ≠ .hostEarly ∧ s.tickPhase ≠ .hostLate :=
  ⟨ready, by decide⟩
theorem witness_EveryStepKeepsGoodStates_receive :
    ∃ s t : State, Inv s ∧ step s = .next t :=
  ⟨edgeNow, _, by decide, rfl⟩
theorem witness_EveryStepKeepsGoodStates_emit : ∃ s t : State, Inv s ∧ step s = .next t := ⟨emitting, _, by decide, rfl⟩
theorem witness_DispatcherHandlesAWord_invalid : ∃ w : Word, onesOf w % 2 = 1 := ⟨0x49C0, by decide⟩
theorem witness_DispatcherHandlesAWord_valid : ∃ w : Word, onesOf w % 2 = 0 := ⟨0x49C1, by decide⟩
theorem witness_TableWordsAreValid_key : ∃ (k : Key) (w : Word), w ∈ keyTable k := ⟨.zonaIn, 0x00CF, List.mem_cons_self⟩
theorem witness_TableWordsAreValid_event : ∃ (w : Word) (e : Event), eventTable w = some e := ⟨0x49C1, .alarmArmed, rfl⟩
theorem witness_SendKeysTakesDigitsOnly_key :
    ∃ (s : State) (k : Key) (rest : List HostItem),
      s.tickPhase = .hostEarly ∧ s.txph = .idle ∧ s.hostMode = .free ∧
      s.hostIn = .issue false (.sendKey k) :: rest :=
  ⟨calling (.sendKey .fireLong), .fireLong, [], by decide⟩
theorem witness_SendKeysTakesDigitsOnly_digits :
    ∃ (s : State) (ps : List (Char × Key)) (rest : List HostItem), (∀ p ∈ ps, p ∈ digitPairs) ∧
      s.tickPhase = .hostEarly ∧ s.txph = .idle ∧ s.hostMode = .free ∧
      s.hostIn = .issue false (.sendKeys (ps.map (·.1))) :: rest :=
  ⟨calling (.sendKeys ['0', '9']), [('0', .d0), ('9', .d9)], [], by decide, rfl, rfl, rfl, rfl⟩
theorem witness_SendKeysTakesDigitsOnly_above :
    ∃ (s : State) (cs : List Char) (rest : List HostItem),
      s.tickPhase = .hostEarly ∧ s.txph = .idle ∧ s.hostMode = .free ∧ s.hostIn = .issue false (.sendKeys cs) :: rest ∧ ∃ ch ∈ cs, ¬ ('0' ≤ ch ∧ ch ≤ '9') :=
  ⟨calling (.sendKeys [':']), [':'], [], rfl, rfl, rfl, rfl, ':', List.mem_cons_self, by decide⟩
theorem witness_SendKeysTakesDigitsOnly_below :
    ∃ (s : State) (cs : List Char) (rest : List HostItem),
      s.tickPhase = .hostLate ∧ s.txph = .idle ∧ s.hostMode = .free ∧ s.hostIn = .issue true (.sendKeys cs) :: rest ∧ ∃ ch ∈ cs, ¬ ('0' ≤ ch ∧ ch ≤ '9') :=
  ⟨callingLate (.sendKeys ['/']), ['/'], [], rfl, rfl, rfl, rfl, '/', List.mem_cons_self, by decide⟩
theorem witness_SendKeysTakesDigitsOnly_returns :
    ∃ s : State, s.tickPhase = .hostEarly ∧ s.txph = .idle ∧ s.hostMode = .sending [] :=
  ⟨{ sending with hostMode := .sending [] }, by decide⟩
theorem witness_PollLoopsUntilTimedOutAndDrained_within :
    ∃ (s : State) (start timeout : Nat), s.tickPhase = .hostLate ∧ s.txph = .idle ∧ s.initd = true ∧
      nextChoice s % 2 = 0 ∧ s.hostMode = .pollTest start timeout ∧ s.ms - start < timeout :=
  ⟨polling (.pollTest 0 11), 0, 11, by decide⟩
theorem witness_PollLoopsUntilTimedOutAndDrained_drains :
    ∃ (s : State) (start timeout : Nat), s.tickPhase = .hostLate ∧ s.txph = .idle ∧ s.initd = true ∧
      nextChoice s % 2 = 0 ∧ s.hostMode = .pollTest start timeout ∧ timeout ≤ s.ms - start ∧ s.head ≠ s.tail :=
  ⟨polling (.pollTest 0 10), 0, 10, by decide⟩
theorem witness_PollLoopsUntilTimedOutAndDrained_returns :
    ∃ (s : State) (start timeout : Nat), s.tickPhase = .hostLate ∧ s.txph = .idle ∧ s.initd = true ∧
      nextChoice s % 2 = 0 ∧ s.hostMode = .pollTest start timeout ∧ timeout ≤ s.ms - start ∧ s.head = s.tail :=
  ⟨{ polling (.pollTest 0 10) with head := 1 }, 0, 10, by decide⟩
theorem witness_PollLoopsUntilTimedOutAndDrained_checks :
    ∃ (s : State) (start timeout : Nat), s.tickPhase = .hostLate ∧ s.txph = .idle ∧ s.initd = true ∧
      nextChoice s % 2 = 0 ∧ s.hostMode = .pollCheck start timeout ∧ s.head ≠ s.tail :=
  ⟨polling (.pollCheck 0 10), 0, 10, by decide⟩
theorem witness_PollLoopsUntilTimedOutAndDrained_yields :
    ∃ (s : State) (start timeout : Nat), s.tickPhase = .hostLate ∧ s.txph = .idle ∧ s.initd = true ∧
      nextChoice s % 2 = 0 ∧ s.hostMode = .pollCheck start timeout ∧ s.head = s.tail :=
  ⟨{ polling (.pollCheck 0 11) with head := 1 }, 0, 11, by decide⟩
theorem witness_PollLoopsUntilTimedOutAndDrained_reads :
    ∃ (s : State) (start timeout : Nat), s.tickPhase = .hostLate ∧ s.txph = .idle ∧ s.initd = true ∧
      nextChoice s % 2 = 0 ∧ s.hostMode = .pollRead start timeout ∧ s.head ≠ s.tail ∧ ∃ w, s.buf.read s.head.toNat = some w :=
  ⟨polling (.pollRead 0 10), 0, 10, rfl, rfl, rfl, rfl, rfl, by decide, 0x49C1, rfl⟩
theorem witness_PollLoopsUntilTimedOutAndDrained_keeps :
    ∃ (s : State) (start timeout : Nat) (w : Word), s.tickPhase = .hostLate ∧ s.txph = .idle ∧ s.initd = true ∧
      nextChoice s % 2 = 0 ∧ s.hostMode = .pollValid start timeout w ∧ onesOf w % 2 = 0 :=
  ⟨polling (.pollValid 0 10 0x49C1), 0, 10, 0x49C1, by decide⟩
theorem witness_PollLoopsUntilTimedOutAndDrained_drops :
    ∃ (s : State) (start timeout : Nat) (w : Word), s.tickPhase = .hostLate ∧ s.txph = .idle ∧ s.initd = true ∧
      nextChoice s % 2 = 0 ∧ s.hostMode = .pollValid start timeout w ∧ onesOf w % 2 = 1 :=
  ⟨polling (.pollValid 0 10 0x49C0), 0, 10, 0x49C0, by decide⟩
theorem witness_PollLoopsUntilTimedOutAndDrained_early :
    ∃ (s : State) (start timeout : Nat), s.tickPhase = .hostEarly ∧ s.txph = .idle ∧ s.initd = true ∧
      nextChoice s % 2 = 0 ∧ s.hostMode = .pollCheck start timeout :=
  ⟨{ polling (.pollCheck 0 10) with tickPhase := .hostEarly }, 0, 10, by decide⟩
theorem witness_PollLoopsUntilTimedOutAndDrained_passes_early :
    ∃ (s : State) (start timeout : Nat) (w : Word), s.txph = .idle ∧ nextChoice s % 2 = 1 ∧
      s.hostMode = .pollValid start timeout w ∧ s.tickPhase = .hostEarly :=
  ⟨{ polling (.pollValid 0 10 0x49C1) with tickPhase := .hostEarly, choiceIn := [1] }, 0, 10, 0x49C1, by decide⟩
theorem witness_PollLoopsUntilTimedOutAndDrained_passes_late :
    ∃ (s : State) (start timeout : Nat) (w : Word), s.txph = .idle ∧ nextChoice s % 2 = 1 ∧
      s.hostMode = .pollValid start timeout w ∧ s.tickPhase = .hostLate :=
  ⟨{ polling (.pollValid 0 10 0x49C1) with tickPhase := .hostLate, choiceIn := [1] }, 0, 10, 0x49C1, by decide⟩
theorem witness_PollLoopsUntilTimedOutAndDrained_yield_over :
    ∃ (s : State) (start timeout : Nat), s.txph = .idle ∧ s.hostMode = .pollYield start timeout 0 ∧
      s.tickPhase = .hostEarly :=
  ⟨{ polling (.pollYield 0 10 0) with tickPhase := .hostEarly }, 0, 10, by decide⟩
theorem witness_PollLoopsUntilTimedOutAndDrained_yield_early :
    ∃ (s : State) (start timeout : Nat), s.txph = .idle ∧ s.hostMode = .pollYield start timeout 1 ∧
      s.tickPhase = .hostEarly :=
  ⟨{ polling (.pollYield 0 10 1) with tickPhase := .hostEarly }, 0, 10, by decide⟩
theorem witness_PollLoopsUntilTimedOutAndDrained_yield_late :
    ∃ (s : State) (start timeout : Nat), s.txph = .idle ∧ s.hostMode = .pollYield start timeout 1 ∧
      s.tickPhase = .hostLate :=
  ⟨{ polling (.pollYield 0 10 1) with tickPhase := .hostLate }, 0, 10, by decide⟩
theorem witness_StepsGoOnOrAreRefusedByRule :
    ∃ (s : State) (r : Refusal), step s = .refused r ∧ s.initd = true :=
  ⟨calling (.op 0x180000), _, rfl, rfl⟩
theorem witness_PollNeedsACallback_registered :
    ∃ (s : State) (n : Nat) (rest : List HostItem),
      s.tickPhase = .hostEarly ∧ s.txph = .idle ∧ s.hostMode = .free ∧
      s.hostIn = .issue false (.poll n) :: rest ∧ s.callback = true :=
  ⟨{ calling (.poll 5) with callback := true }, 5, [], rfl, rfl, rfl, rfl, rfl⟩
theorem witness_PollNeedsACallback_none :
    ∃ (s : State) (n : Nat) (rest : List HostItem),
      s.tickPhase = .hostEarly ∧ s.txph = .idle ∧ s.hostMode = .free ∧
      s.hostIn = .issue false (.poll n) :: rest ∧ s.callback = false :=
  ⟨calling (.poll 5), 5, [], rfl, rfl, rfl, rfl, rfl⟩

end Sys2Proof.Machine.Tests
end

section
/-! PROOFS. The successor of a queue index (R43). -/

namespace Sys2Proof.Machine

/-- The wrapping case of R43. -/
theorem nextSlot_toNat_of_last {i : Slot} (hlast : i.toNat + 1 = 64) : (nextSlot i).toNat = 0 := by
  rw [nextSlot_toNat, hlast, Nat.mod_self]

/-- The plain case of R43: the index has six bits, so its successor is below 64 unless it is 64 itself. -/
theorem nextSlot_toNat_of_not_last {i : Slot} (hlast : i.toNat + 1 ≠ 64) :
    (nextSlot i).toNat = i.toNat + 1 := by
  have hlt : i.toNat + 1 < 64 := Nat.lt_of_le_of_ne i.isLt hlast
  rw [nextSlot_toNat, Nat.mod_eq_of_lt hlt]

/-- Settles O5, by the two cases of R43 and the form modulo 64. -/
theorem nextSlotIsTwoCase : Obligations.NextSlotIsTwoCase := by
  intro i
  refine ⟨?_, nextSlot_toNat i⟩
  split
  case isTrue hlast => exact nextSlot_toNat_of_last hlast
  case isFalse hlast => exact nextSlot_toNat_of_not_last hlast

end Sys2Proof.Machine
end

section
/-! PROOFS. The frame of a word (R66, R67): its chips, position by position, against the string START, cells, STOP. -/

namespace Sys2Proof.Machine

/-- The chips of `n` cells `1 b 0` (R66), the bit of cell j being `b j`. -/
def cellChips (b : Nat → Bool) (n : Nat) : List Bool :=
  (List.range n).flatMap fun j => [true, b j, false]

/-- R67, with the cells named: the string of a frame is START, sixteen cells from bit 15 down, STOP. -/
theorem frameString_eq_cellChips (w : Word) :
    frameString w = true :: (cellChips (fun j => w.getLsbD (15 - j)) 16 ++ [true]) := rfl

theorem cellChips_succ (b : Nat → Bool) (n : Nat) :
    cellChips b (n + 1) = cellChips b n ++ [true, b n, false] := by
  simp [cellChips, List.range_succ]

@[simp] theorem cellChips_length (b : Nat → Bool) (n : Nat) : (cellChips b n).length = 3 * n := by
  induction n with
  | zero => rfl
  | succ n ih => simp [cellChips_succ, ih, Nat.mul_succ]

/-- Chip i of cell j is 1, the bit, 0 for i = 0, 1, 2. -/
theorem cellChips_getElem? (b : Nat → Bool) {n j i : Nat} (hj : j < n) (hi : i < 3) :
    (cellChips b n)[3 * j + i]? = [true, b j, false][i]? := by
  induction n with
  | zero => exact absurd hj (Nat.not_lt_zero j)
  | succ n ih =>
    rw [cellChips_succ]
    rcases Nat.lt_succ_iff_lt_or_eq.1 hj with hlt | rfl
    · rw [List.getElem?_append_left (by rw [cellChips_length]; omega), ih hlt]
    · rw [List.getElem?_append_right (by rw [cellChips_length]; omega), cellChips_length,
        Nat.add_sub_cancel_left]

/-- Between START and STOP chip 1 + 3 j + i of a frame is chip i of cell j. -/
theorem chip_of_cell (w : Word) {j i : Nat} (hj : j < 16) (hi : i < 3) :
    [true, w.getLsbD (15 - j), false][i]? = some (chip w (3 * j + i + 1)) := by
  have hinner : ¬ (3 * j + i + 1 = 0 ∨ 3 * j + i + 1 = 49) := by omega
  have hcell : (3 * j + i) / 3 = j := by omega
  have hplace : (3 * j + i) % 3 = i := by omega
  rw [chip, if_neg hinner, Nat.add_sub_cancel, hcell, hplace]
  interval_cases i <;> rfl

theorem frameString_length (w : Word) : (frameString w).length = 50 := by
  simp [frameString_eq_cellChips]

/-- R67: the string holds the chips of the frame, in order. -/
theorem frameString_getElem? (w : Word) {c : Nat} (hc : c < 50) :
    (frameString w)[c]? = some (chip w c) := by
  rw [frameString_eq_cellChips]
  rcases c with _ | k
  case zero => rfl
  case succ =>
    rw [List.getElem?_cons_succ]
    by_cases hstop : k = 48
    · subst hstop
      rw [List.getElem?_append_right (by simp), cellChips_length]
      rfl
    · have hsplit : k = 3 * (k / 3) + k % 3 := (Nat.div_add_mod k 3).symm
      have hcell : k / 3 < 16 := by omega
      have hplace : k % 3 < 3 := Nat.mod_lt k (by decide)
      rw [List.getElem?_append_left (by rw [cellChips_length]; omega), hsplit,
        cellChips_getElem? _ hcell hplace, chip_of_cell w hcell hplace]

/-- Chip c stands in bit 49 − c of the frame's encoding. -/
theorem frameBits_getLsbD_chip (w : Word) {c : Nat} (hc : c < 50) :
    (frameBits w).getLsbD (49 - c) = chip w c := by
  have hbit : 49 - c < 50 := by omega
  have hchip : 49 - (49 - c) = c := by omega
  rw [frameBits_getLsbD, decide_eq_true hbit, Bool.true_and, hchip]

/-- Settles O16, from the positions of START, cells and STOP and the decoder's inverse law for frames. -/
theorem frameIsStartCellsStop : Obligations.FrameIsStartCellsStop := by
  intro w
  exact ⟨frameString_length w, fun c hc => frameString_getElem? w hc,
    fun c hc => frameBits_getLsbD_chip w hc, decodeFrame_frameBits w⟩

end Sys2Proof.Machine
end

section
/-! PROOFS. The reserved operation codes (R72), and the step of a free HOST that issues its next item. -/

namespace Sys2Proof.Machine

/-- R70, R72: the decoder refuses a command exactly if the operation map does not list its code. -/
theorem decodeCommand_eq_reservedCode_iff (c : Command) :
    decodeCommand c = .error .reservedCode ↔
      ((commandOp c).toNat = 0x00 ∨ (commandOp c).toNat = 0x0E ∨ (commandOp c).toNat = 0x0F ∨
        0x18 ≤ (commandOp c).toNat) := by
  have hop : (commandOp c).toNat < 2 ^ 5 := (commandOp c).isLt
  unfold decodeCommand
  split
  -- the last branch of the map: its hypotheses exclude the listed codes one by one
  case h_22 =>
    refine iff_of_true rfl ?_
    simp only [imp_false] at *
    omega
  -- a listed code decodes and lies outside the reserved ranges
  all_goals exact iff_of_false nofun (by omega)

/-- Bits that do not decode are refused with the decoder's reason. -/
theorem runCoded_of_error {c : Coded} {e : Reject} (k : State → State) (s : State) (h : decode c = .error e) :
    runCoded c k s = .refused (.undecodable e) := by
  simp [runCoded, h]

/-- Only INIT and TX_SEND are bound to the first part of the tick; a command that does not decode is neither. -/
theorem mustBeEarly_of_error {c : Command} {e : Reject} (h : decode (.command c) = .error e) :
    mustBeEarly (.op c) = false := by
  simp [mustBeEarly, h]

/-- A call that is not bound to the first part of the tick is issued in the part its item names. -/
theorem issuePhase_of_not_mustBeEarly (late : Bool) {call : HostCall} (h : mustBeEarly call = false) :
    issuePhase late call = if late then .hostLate else .hostEarly := by
  simp [issuePhase, h]

/-- HOST issues in one of its own two parts of the tick. -/
theorem issuePhase_eq_early_or_late (late : Bool) (call : HostCall) :
    issuePhase late call = .hostEarly ∨ issuePhase late call = .hostLate := by
  unfold issuePhase
  split
  · exact .inr rfl
  · exact .inl rfl

/-- HOST, not blocked and with no call running, takes its next item. -/
theorem hostTurn_free {s : State} (hidle : s.txph = .idle) (hfree : s.hostMode = .free) :
    hostTurn s = freeTurn s := by
  rw [hostTurn, if_pos hidle, hfree]

/-- R4, R5: a free HOST whose next item is due issues it. -/
theorem step_issue {s : State} {late : Bool} {call : HostCall} {rest : List HostItem}
    (hdue : s.tickPhase = issuePhase late call) (hidle : s.txph = .idle) (hfree : s.hostMode = .free)
    (hitem : s.hostIn = .issue late call :: rest) :
    step s = hostCall call { s with hostIn := rest } := by
  have hturn : step s = hostTurn s := by
    rcases issuePhase_eq_early_or_late late call with hp | hp
    · exact step_hostEarly (hdue.trans hp)
    · exact step_hostLate (hdue.trans hp)
  rw [hturn, hostTurn_free hidle hfree]
  simp only [freeTurn, hitem]
  rw [if_pos hdue]

/-- Settles O38, by the branches of the operation map and the step of a free HOST. -/
theorem reservedCodesAreRefused : Obligations.ReservedCodesAreRefused := by
  intro c
  refine ⟨?codes, ?refused⟩
  case codes =>
    rw [← commandOp_toNat]
    exact decodeCommand_eq_reservedCode_iff c
  case refused =>
    intro s late rest herr hphase hidle hfree hitem
    have hdue : s.tickPhase = issuePhase late (.op c) :=
      hphase.trans (issuePhase_of_not_mustBeEarly late (mustBeEarly_of_error herr)).symm
    rw [step_issue hdue hidle hfree hitem]
    exact runCoded_of_error settle _ herr

end Sys2Proof.Machine
end

section
/-! PROOFS. The packet codec (40_packet_codec.md): the fields of a word as numbers, the parity of the number of its ones,
and what the five operations return. -/

namespace Sys2Proof.Machine

/-! ### The operations of the codec -/

/-- After INIT, an operation that returns a value changes the result port only. -/
theorem answering_of {s : State} (v : Word) (h : s.initd = true) : answering s v = .next (s.answer v) :=
  answering_eq_next.2 ⟨h, rfl⟩

theorem exec_pktParity_of {s : State} (w : Word) (h : s.initd = true) :
    exec (.pktParity w) s = .next (s.answer (parityField w)) := answering_of _ h

theorem exec_pktId_of {s : State} (w : Word) (h : s.initd = true) :
    exec (.pktId w) s = .next (s.answer (idField w)) := answering_of _ h

theorem exec_pktData_of {s : State} (w : Word) (h : s.initd = true) :
    exec (.pktData w) s = .next (s.answer (dataField w)) := answering_of _ h

theorem exec_pktChk_of {s : State} (w : Word) (h : s.initd = true) :
    exec (.pktChk w) s = .next (s.answer (checksumField w)) := answering_of _ h

theorem exec_pktValid_of {s : State} (w : Word) (h : s.initd = true) :
    exec (.pktValid w) s = .next (s.answer (boolWord (validWord w))) := answering_of _ h

/-! ### The fields of a word, as numbers (R60) -/

/-- A field of n bits from bit k up, zero-extended, is a digit of the word. -/
theorem zeroExtend_extractLsb'_toNat (w : Word) (k : Nat) {n : Nat} (hn : n ≤ 16) :
    ((w.extractLsb' k n).zeroExtend 16).toNat = w.toNat / 2 ^ k % 2 ^ n := by
  rw [BitVec.zeroExtend, BitVec.toNat_setWidth_of_le hn, BitVec.extractLsb'_toNat, Nat.shiftRight_eq_div_pow]

/-- The parity bit is the highest bit, so nothing stands above it to be cut off. -/
theorem parityField_toNat (w : Word) : (parityField w).toNat = w.toNat / 2 ^ 15 := by
  have hbit : w.toNat / 2 ^ 15 < 2 ^ 1 := Nat.div_lt_of_lt_mul w.isLt
  rw [parityField, zeroExtend_extractLsb'_toNat w 15 (by decide), Nat.mod_eq_of_lt hbit]

theorem idField_toNat (w : Word) : (idField w).toNat = w.toNat / 2 ^ 12 % 8 :=
  zeroExtend_extractLsb'_toNat w 12 (by decide)

theorem dataField_toNat (w : Word) : (dataField w).toNat = w.toNat / 2 ^ 4 % 256 :=
  zeroExtend_extractLsb'_toNat w 4 (by decide)

theorem checksumField_toNat (w : Word) : (checksumField w).toNat = w.toNat % 16 :=
  (zeroExtend_extractLsb'_toNat w 0 (by decide)).trans (by norm_num)

/-- The fields have 1, 3, 8 and 4 bits. -/
theorem fields_lt (w : Word) :
    (parityField w).toNat < 2 ∧ (idField w).toNat < 8 ∧ (dataField w).toNat < 256 ∧
      (checksumField w).toNat < 16 := by
  rw [parityField_toNat, idField_toNat, dataField_toNat, checksumField_toNat]
  exact ⟨Nat.div_lt_of_lt_mul w.isLt, Nat.mod_lt _ (by decide), Nat.mod_lt _ (by decide), Nat.mod_lt _ (by decide)⟩

/-- R86: the word is the sum of its fields, each at its place. -/
theorem toNat_eq_fields (w : Word) :
    w.toNat = (parityField w).toNat * 2 ^ 15 + (idField w).toNat * 2 ^ 12 + (dataField w).toNat * 2 ^ 4 +
      (checksumField w).toNat := by
  rw [parityField_toNat, idField_toNat, dataField_toNat, checksumField_toNat]
  omega

/-! ### The number of ones (R61) -/

theorem onesOf_eq_sum (w : Word) : onesOf w = ∑ i : Fin 16, (w.getLsbD i).toNat := by
  rw [onesOf, Finset.card_filter]
  refine Finset.sum_congr rfl fun i _ => ?_
  cases w.getLsbD i <;> rfl

/-- The sum over the sixteen bits counts the ones. -/
theorem popcount16_eq_onesOf (w : Word) : popcount16 w = onesOf w := by
  rw [onesOf_eq_sum, Fin.sum_univ_eq_sum_range fun i => (w.getLsbD i).toNat]
  rfl

theorem validWord_eq_decide (w : Word) : validWord w = decide (onesOf w % 2 = 0) := by
  rw [validWord, popcount16_eq_onesOf, beq_eq_decide]

/-- A bit of the exclusive or is the sum of the two bits without its carry. -/
theorem toNat_xor_add_two_mul_and (a b : Bool) : (a ^^ b).toNat + 2 * (a && b).toNat = a.toNat + b.toNat := by
  cases a <;> cases b <;> rfl

/-- A one that two words share is counted in both and stands in their exclusive or not at all. -/
theorem onesOf_xor (w m : Word) : onesOf (w ^^^ m) + 2 * onesOf (w &&& m) = onesOf w + onesOf m := by
  simp only [onesOf_eq_sum, Finset.mul_sum, ← Finset.sum_add_distrib, BitVec.getLsbD_xor, BitVec.getLsbD_and,
    toNat_xor_add_two_mul_and]

theorem onesOf_one_shiftLeft {i : Nat} (hi : i < 16) : onesOf (1#16 <<< i) = 1 := by
  have hbit : ∀ j : Fin 16, (1#16 <<< i).getLsbD j = true ↔ j = ⟨i, hi⟩ := by
    intro j
    rw [← BitVec.twoPow_eq, BitVec.getLsbD_twoPow, decide_eq_true hi, Bool.true_and, decide_eq_true_eq, Fin.ext_iff,
      eq_comm]
  simp only [onesOf, hbit, Finset.filter_eq', Finset.mem_univ, if_true, Finset.card_singleton]

/-! ### Flipped bits (R85) -/

/-- Flipping an even number of bits keeps the validity. -/
theorem validWord_xor_of_even (w : Word) {m : Word} (hm : onesOf m % 2 = 0) :
    validWord (w ^^^ m) = validWord w := by
  have hsum := onesOf_xor w m
  rw [validWord_eq_decide, validWord_eq_decide, decide_eq_decide]
  omega

/-- Flipping an odd number of bits flips the validity. -/
theorem validWord_xor_of_odd (w : Word) {m : Word} (hm : onesOf m % 2 = 1) :
    validWord (w ^^^ m) = !validWord w := by
  have hsum := onesOf_xor w m
  rw [validWord_eq_decide, validWord_eq_decide, ← decide_not, decide_eq_decide]
  omega

theorem boolWord_not (b : Bool) : boolWord (!b) = 1 - boolWord b := by
  cases b <;> rfl

/-! ### The statements -/

/-- Settles O3, by the parity of the number of ones of an exclusive or; a single bit is an odd set. -/
theorem flippedBitsChangeValidity : Obligations.FlippedBitsChangeValidity := by
  intro w m s hinit
  have hodd (h : onesOf m % 2 = 1) : boolWord (validWord (w ^^^ m)) = 1 - boolWord (validWord w) := by
    rw [validWord_xor_of_odd w h, boolWord_not]
  refine ⟨_, _, exec_pktValid_of w hinit, exec_pktValid_of (w ^^^ m) hinit, ?even, ?odd, ?single⟩
  all_goals simp only [answer_result]
  case even => exact fun h => by rw [validWord_xor_of_even w h]
  case odd => exact hodd
  case single => exact fun i hi h => hodd (by rw [h, onesOf_one_shiftLeft hi])

/-- Settles O2, from the operation map and the count of the ones. -/
theorem pktValidIsEvenParity : Obligations.PktValidIsEvenParity := by
  intro w s
  refine ⟨decode_pktValid w, fun hinit => ?_⟩
  rw [exec_pktValid_of w hinit, validWord_eq_decide, boolWord, State.answer]
  simp only [decide_eq_true_eq]

/-- Settles O4, from the fields as digits of the word. -/
theorem fieldsRebuildTheWord : Obligations.FieldsRebuildTheWord := by
  intro w s hinit
  exact ⟨_, _, _, _, exec_pktParity_of w hinit, exec_pktId_of w hinit, exec_pktData_of w hinit,
    exec_pktChk_of w hinit, toNat_eq_fields w, fields_lt w⟩

/-- Settles O1, from the operation map and the fields as digits of the word. -/
theorem packetFieldsAreExtracted : Obligations.PacketFieldsAreExtracted := by
  intro w s
  refine ⟨⟨decodeCommand_append 0b00110#5 w, decodeCommand_append 0b00111#5 w, decodeCommand_append 0b01000#5 w,
    decodeCommand_append 0b01001#5 w⟩, fun hinit => ?_⟩
  rw [← parityField_toNat, ← idField_toNat, ← dataField_toNat, ← checksumField_toNat]
  simp only [BitVec.ofNat_toNat, BitVec.setWidth_eq]
  exact ⟨exec_pktParity_of w hinit, exec_pktId_of w hinit, exec_pktData_of w hinit, exec_pktChk_of w hinit⟩

end Sys2Proof.Machine
end

section
/-! PROOFS. The word queue (41_word_queue.md): what the four operations do, how they move COUNT, and the list of words that
a queue holds, oldest first, as the operations change it. -/

namespace Sys2Proof.Machine

/-! ### The operations of the queue -/

theorem exec_qPush_of {s : State} (w : Word) (h : s.initd = true) :
    exec (.qPush w) s = .next ((pushWord w s).answer 0) := whenInitialised_of _ h

theorem exec_qRead_of {s : State} (h : s.initd = true) : exec .qRead s = .next (readWord s) :=
  whenInitialised_of _ h

theorem exec_qEmpty_of {s : State} (h : s.initd = true) :
    exec .qEmpty s = .next (s.answer (boolWord (empty s))) := answering_of _ h

theorem exec_qFull_of {s : State} (h : s.initd = true) :
    exec .qFull s = .next (s.answer (boolWord (full s))) := answering_of _ h

theorem pushWord_of_full (w : Word) {s : State} (h : full s = true) : pushWord w s = s := by
  rw [pushWord, if_pos h]

theorem pushWord_of_not_full (w : Word) {s : State} (h : full s = false) :
    pushWord w s = { s with buf := s.buf.write s.tail.toNat w, tail := nextSlot s.tail } := by
  rw [pushWord, h, if_neg Bool.false_ne_true]

theorem readWord_of_empty {s : State} (h : empty s = true) : readWord s = s.answer 0 := by
  rw [readWord, if_pos h]

theorem readWord_of_not_empty {s : State} (h : empty s = false) :
    readWord s = { s with head := nextSlot s.head, result := readSlot s s.head } := by
  rw [readWord, h, if_neg Bool.false_ne_true]

@[simp] theorem pushWord_head (w : Word) (s : State) : (pushWord w s).head = s.head := by rw [pushWord_eq]

@[simp] theorem pushWord_initd (w : Word) (s : State) : (pushWord w s).initd = s.initd := by rw [pushWord_eq]

@[simp] theorem readWord_initd (s : State) : (readWord s).initd = s.initd := by
  rcases readWord_cases s with ⟨-, h⟩ | ⟨-, h⟩ <;> rw [h]

theorem readSlot_of_read {s : State} {i : Slot} {w : Word} (h : s.buf.read i.toNat = some w) : readSlot s i = w := by
  rw [readSlot, h, Option.getD_some]

theorem empty_false_iff (s : State) : empty s = false ↔ s.head ≠ s.tail := by
  rw [← Bool.not_eq_true, empty_iff]

/-! ### COUNT (R94) -/

/-- COUNT does not depend on the result port. -/
@[simp] theorem count_answer (s : State) (v : Word) : count (s.answer v) = count s := rfl

theorem full_false_iff_count (s : State) : full s = false ↔ count s ≠ 63 := by
  rw [← Bool.not_eq_true, full_iff_count]

theorem empty_false_iff_count (s : State) : empty s = false ↔ count s ≠ 0 := by
  rw [← Bool.not_eq_true, empty_iff_count]

theorem count_pushWord (w : Word) (s : State) :
    count (pushWord w s) = if count s = 63 then 63 else count s + 1 := by
  by_cases hcount : count s = 63
  · rw [pushWord_of_full w ((full_iff_count s).2 hcount), if_pos hcount, hcount]
  · rw [pushWord_of_not_full w ((full_false_iff_count s).2 hcount), if_neg hcount]
    have htail : s.tail.toNat < 64 := s.tail.isLt
    rw [count_eq] at hcount
    rw [count_eq, count_eq, nextSlot_toNat]
    dsimp only
    omega

theorem count_readWord (s : State) : count (readWord s) = count s - 1 := by
  by_cases hcount : count s = 0
  · rw [readWord_of_empty ((empty_iff_count s).2 hcount), count_answer, hcount]
  · rw [readWord_of_not_empty ((empty_false_iff_count s).2 hcount)]
    have hhead : s.head.toNat < 64 := s.head.isLt
    rw [count_eq] at hcount
    rw [count_eq, count_eq, nextSlot_toNat]
    dsimp only
    omega

/-! ### The words held -/

/-- The word that stands k places after HEAD, if one was ever written there. -/
def queueWord (s : State) (k : Nat) : Option Word := s.buf.read (s.head + BitVec.ofNat 6 k).toNat

theorem queueWord_zero (s : State) : queueWord s 0 = s.buf.read s.head.toNat := by simp [queueWord]

/-- TAIL stands COUNT places after HEAD (R37). -/
theorem head_add_count (s : State) : s.head + BitVec.ofNat 6 (count s) = s.tail := by
  rw [count, BitVec.ofNat_toNat, BitVec.setWidth_eq, BitVec.add_comm, BitVec.sub_add_cancel]

/-- A place that holds a word is not the place where a push stores. -/
theorem head_add_toNat_ne_tail (s : State) {k : Nat} (hk : k < count s) :
    (s.head + BitVec.ofNat 6 k).toNat ≠ s.tail.toNat := by
  have hcount : count s < 64 := count_lt s
  intro h
  rw [← head_add_count s, BitVec.toNat_inj, BitVec.add_right_inj, ← BitVec.toNat_inj, BitVec.toNat_ofNat,
    BitVec.toNat_ofNat, Nat.mod_eq_of_lt (hk.trans hcount), Nat.mod_eq_of_lt hcount] at h
  exact hk.ne h

/-- A push does not touch the words held before it. -/
theorem queueWord_pushWord_of_lt (w : Word) {s : State} {k : Nat} (hk : k < count s) :
    queueWord (pushWord w s) k = queueWord s k := by
  rcases pushWord_cases w s with ⟨-, h⟩ | ⟨-, h⟩
  case inl => rw [h]
  case inr =>
    rw [h]
    exact Memory.read_write_other s.buf w (head_add_toNat_ne_tail s hk)

/-- A push that is not dropped stores its word behind those held before it. -/
theorem queueWord_pushWord_count (w : Word) {s : State} (h : full s = false) :
    queueWord (pushWord w s) (count s) = some w := by
  rw [queueWord, pushWord_head, head_add_count, pushWord_of_not_full w h]
  exact Memory.read_write_self s.buf s.tail.toNat w

/-- A read that returns a word moves every other word one place towards HEAD. -/
theorem queueWord_readWord {s : State} (h : empty s = false) (k : Nat) :
    queueWord (readWord s) k = queueWord s (k + 1) := by
  have hplace : nextSlot s.head + BitVec.ofNat 6 k = s.head + BitVec.ofNat 6 (k + 1) := by
    rw [nextSlot_eq_add, BitVec.ofNat_add, BitVec.add_assoc, BitVec.add_comm 1]
    rfl
  rw [readWord_of_not_empty h, queueWord, queueWord, hplace]

/-- The queue of `s` holds the words `q`, the oldest first. -/
structure QueueHolds (s : State) (q : List Word) : Prop where
  count_eq_length : count s = q.length
  word_eq : ∀ k, k < q.length → queueWord s k = q[k]?

/-- To hold no word is to be EMPTY. -/
theorem queueHolds_nil_iff (s : State) : QueueHolds s [] ↔ empty s = true := by
  rw [empty_iff_count]
  exact ⟨fun h => h.count_eq_length, fun h => ⟨h, fun k hk => absurd hk k.not_lt_zero⟩⟩

/-- The words held do not depend on the result port. -/
theorem QueueHolds.answer {s : State} {q : List Word} (h : QueueHolds s q) (v : Word) : QueueHolds (s.answer v) q :=
  ⟨h.count_eq_length, h.word_eq⟩

/-- R94: a queue is FULL exactly if it holds 63 words; it never holds more. -/
theorem QueueHolds.full_eq {s : State} {q : List Word} (h : QueueHolds s q) : full s = decide (63 ≤ q.length) := by
  have hlength : count s = q.length := h.count_eq_length
  have hcount : count s < 64 := count_lt s
  rw [Bool.eq_iff_iff, full_iff_count, decide_eq_true_eq]
  omega

/-- R90: a push appends its word, unless 63 words are held already. -/
theorem QueueHolds.pushWord {s : State} {q : List Word} (h : QueueHolds s q) (w : Word) :
    QueueHolds (pushWord w s) ((q ++ [w]).take 63) := by
  have hlength : count s = q.length := h.count_eq_length
  have hcount : count s < 64 := count_lt s
  cases hfull : full s
  case true =>
    have h63 : q.length = 63 := hlength.symm.trans ((full_iff_count s).1 hfull)
    rwa [pushWord_of_full w hfull, List.take_left' h63]
  case false =>
    have h63 : count s ≠ 63 := (full_false_iff_count s).1 hfull
    rw [List.take_of_length_le (by rw [List.length_append, List.length_singleton]; omega)]
    constructor
    case count_eq_length => rw [count_pushWord, if_neg h63, hlength, List.length_append, List.length_singleton]
    case word_eq =>
      intro k hk
      rw [List.length_append, List.length_singleton, Nat.lt_succ_iff_lt_or_eq] at hk
      rcases hk with hlt | rfl
      · rw [queueWord_pushWord_of_lt w (hlength ▸ hlt), h.word_eq k hlt, List.getElem?_append_left hlt]
      · rw [← hlength, queueWord_pushWord_count w hfull, hlength, List.getElem?_concat_length]

theorem QueueHolds.not_empty {s : State} {w : Word} {q : List Word} (h : QueueHolds s (w :: q)) : empty s = false := by
  rw [empty_false_iff_count, h.count_eq_length]
  exact Nat.succ_ne_zero q.length

/-- R91: a read takes the oldest word away. -/
theorem QueueHolds.readWord {s : State} {w : Word} {q : List Word} (h : QueueHolds s (w :: q)) :
    QueueHolds (readWord s) q where
  count_eq_length := by rw [count_readWord, h.count_eq_length, List.length_cons, Nat.add_sub_cancel]
  word_eq k hk := by
    rw [queueWord_readWord h.not_empty, h.word_eq (k + 1) (Nat.succ_lt_succ hk), List.getElem?_cons_succ]

/-- R91: a read returns the oldest word. -/
theorem QueueHolds.readWord_result {s : State} {w : Word} {q : List Word} (h : QueueHolds s (w :: q)) :
    (Machine.readWord s).result = w := by
  have hhead : s.buf.read s.head.toNat = some w := (queueWord_zero s).symm.trans (h.word_eq 0 q.length.succ_pos)
  rw [readWord_of_not_empty h.not_empty]
  exact readSlot_of_read hhead

/-! ### Runs of queue operations -/

theorem execAll_cons {i : Instr} {is : List Instr} {s t u : State} {rs : List Word} (hi : exec i s = .next t)
    (his : execAll is t = some (rs, u)) : execAll (i :: is) s = some (t.result :: rs, u) := by
  simp only [execAll, hi, his]

/-- Two runs, the second from the end of the first, are one run. -/
theorem execAll_append {is js : List Instr} {s t u : State} {rs vs : List Word} (his : execAll is s = some (rs, t))
    (hjs : execAll js t = some (vs, u)) : execAll (is ++ js) s = some (rs ++ vs, u) := by
  induction is generalizing s rs with
  | nil =>
    obtain ⟨rfl, rfl⟩ := Prod.mk.inj (Option.some.inj his)
    exact hjs
  | cons i is ih =>
    simp only [execAll] at his
    split at his
    case h_1 a hi =>
      split at his
      case h_1 ps b hps =>
        obtain ⟨rfl, rfl⟩ := Prod.mk.inj (Option.some.inj his)
        exact execAll_cons hi (ih hps)
      case h_2 => exact nomatch his
    all_goals exact nomatch his

/-- What is cut off behind the first n elements stays cut off when more are appended. -/
theorem take_take_append {α : Type} (n : Nat) (l m : List α) : (l.take n ++ m).take n = (l ++ m).take n := by
  rw [List.take_append, List.take_append, List.take_take, Nat.min_self, List.length_take]
  congr 2
  omega

/-- Pushes append their words, in order, as far as there is room for 63, and each answers 0. -/
theorem QueueHolds.execAll_pushes {s : State} {q : List Word} (h : QueueHolds s q) (hinit : s.initd = true)
    (ws : List Word) :
    ∃ t, execAll (ws.map Instr.qPush) s = some (List.replicate ws.length 0, t) ∧ t.initd = true ∧
      QueueHolds t ((q ++ ws).take 63) := by
  induction ws generalizing s q with
  | nil =>
    have hroom : q.length ≤ 63 := h.count_eq_length ▸ Nat.le_of_lt_succ (count_lt s)
    refine ⟨s, rfl, hinit, ?_⟩
    rwa [List.append_nil, List.take_of_length_le hroom]
  | cons w ws ih =>
    have hwords : ((q ++ [w]).take 63 ++ ws).take 63 = (q ++ w :: ws).take 63 := by
      rw [take_take_append, List.append_assoc, List.singleton_append]
    obtain ⟨t, hrun, htinit, ht⟩ := ih ((h.pushWord w).answer 0) ((pushWord_initd w s).trans hinit)
    exact ⟨t, execAll_cons (exec_qPush_of w hinit) hrun, htinit, hwords ▸ ht⟩

/-- As many reads as words are held return them, the oldest first, and leave the queue empty. -/
theorem QueueHolds.execAll_reads {s : State} {q : List Word} (h : QueueHolds s q) (hinit : s.initd = true) :
    ∃ t, execAll (List.replicate q.length .qRead) s = some (q, t) ∧ empty t = true := by
  induction q generalizing s with
  | nil => exact ⟨s, rfl, (queueHolds_nil_iff s).1 h⟩
  | cons w q ih =>
    obtain ⟨t, hrun, ht⟩ := ih h.readWord ((readWord_initd s).trans hinit)
    refine ⟨t, ?_, ht⟩
    rw [List.length_cons, List.replicate_succ, execAll_cons (exec_qRead_of hinit) hrun, h.readWord_result]

/-! ### The statements -/

/-- Settles O10, by the words held: after the pushes, at Q_FULL, and after the reads. -/
theorem queueIsFifoAndOverflowIsLossy : Obligations.QueueIsFifoAndOverflowIsLossy := by
  intro ws s hinit hempty
  have hnil : QueueHolds s [] := (queueHolds_nil_iff s).2 hempty
  obtain ⟨t, hpushes, htinit, ht⟩ := hnil.execAll_pushes hinit ws
  rw [List.nil_append] at ht
  have hlength : (ws.take 63).length = min ws.length 63 := by rw [List.length_take, Nat.min_comm]
  have hfull : boolWord (full t) = if 63 ≤ ws.length then 0x0001 else 0x0000 := by
    rw [ht.full_eq, hlength]
    simp only [boolWord, decide_eq_true_eq, le_min_iff, le_refl, and_true]
  have hask : execAll [.qFull] t = some ([boolWord (full t)], t.answer (boolWord (full t))) :=
    execAll_cons (exec_qFull_of htinit) rfl
  obtain ⟨u, hreads, hu⟩ := (ht.answer (boolWord (full t))).execAll_reads htinit
  rw [hlength] at hreads
  exact ⟨u, hfull ▸ execAll_append (execAll_append hpushes hask) hreads, hu⟩

/-- Settles O6, from the operation map and the two branches of a push. -/
theorem qPushStoresAtTailOrDrops : Obligations.QPushStoresAtTailOrDrops := by
  intro w s
  refine ⟨decodeCommand_append 0b00010#5 w, fun hinit => ⟨?drops, ?stores⟩⟩
  all_goals rw [exec_qPush_of w hinit]
  case drops =>
    intro hfull
    rw [pushWord_of_full w ((full_iff s).2 hfull), State.answer]
  case stores =>
    intro hroom
    rw [pushWord_of_not_full w ((full_false_iff s).2 hroom), nextSlot_eq_ofNat, State.answer]
    exact ⟨s.buf.write s.tail.toNat w, rfl, Memory.read_write_self _ _ _, fun _ => Memory.read_write_other _ _⟩

/-- Settles O7, from the operation map and the two branches of a read. -/
theorem qReadTakesTheSlotAtHead : Obligations.QReadTakesTheSlotAtHead := by
  intro a s
  refine ⟨decodeCommand_append 0b00011#5 a, fun hinit => ⟨?nothing, ?word⟩⟩
  all_goals rw [exec_qRead_of hinit]
  case nothing =>
    intro hempty
    rw [readWord_of_empty ((empty_iff s).2 hempty), State.answer]
  case word =>
    intro hword
    rw [readWord_of_not_empty ((empty_false_iff s).2 hword), nextSlot_eq_ofNat]
    exact ⟨readSlot s s.head, rfl, fun _ => readSlot_of_read⟩

/-- Settles O9, from COUNT after a push and after a read. -/
theorem queueOperationsMoveCount : Obligations.QueueOperationsMoveCount := by
  intro w s hinit
  exact ⟨Nat.le_of_lt_succ (count_lt s), empty_iff_count s, full_iff_count s,
    ⟨_, exec_qPush_of w hinit, count_pushWord w s⟩, ⟨_, exec_qRead_of hinit, count_readWord s⟩⟩

/-- Settles O8, from the operation map and the two flags on the indices. -/
theorem queuePredicatesReadTheIndices : Obligations.QueuePredicatesReadTheIndices := by
  intro a s
  refine ⟨decodeCommand_append 0b00100#5 a, decodeCommand_append 0b00101#5 a, fun hinit => ?_⟩
  rw [exec_qEmpty_of hinit, exec_qFull_of hinit]
  simp only [State.answer, boolWord, empty_iff, full_iff, and_self]

end Sys2Proof.Machine
end

section
/-! PROOFS. The bit-timing decoder (42_bit_timing_decoder.md): the class and the bit of an edge as comparisons of numbers,
and the step RX_EDGE in each of its four branches. -/

namespace Sys2Proof.Machine

/-- The event has no refusal of its own: whether an edge qualifies is tested where it is fetched (R100). -/
theorem exec_rxEdge (s : State) : exec .rxEdge s = .next (rxEdgeStep s) := rfl

/-! ### The class and the bit of an edge (R63), ACC and CNT with the bit taken (R103) -/

/-- R102: the elapsed time as modular subtraction of numbers. -/
theorem edgeElapsed_eq (s : State) : edgeElapsed s = (2 ^ 32 + s.now.toNat - s.prevTs.toNat) % 2 ^ 32 := by
  have hprev : s.prevTs.toNat < 2 ^ 32 := s.prevTs.isLt
  rw [edgeElapsed, elapsed, BitVec.toNat_sub, Nat.sub_add_comm hprev.le]

theorem idleEdge_iff (s : State) : idleEdge s = true ↔ s.idleTime.toNat < edgeElapsed s := decide_eq_true_iff

theorem idleEdge_false_iff (s : State) : idleEdge s = false ↔ edgeElapsed s ≤ s.idleTime.toNat := by
  rw [← Bool.not_eq_true, idleEdge_iff, Nat.not_lt]

theorem edgeBit_toNat (s : State) : (edgeBit s).toNat = if s.zeroTime.toNat < edgeElapsed s then 1 else 0 := by
  rw [edgeBit, Bool.toNat, Bool.cond_decide]

/-- R103: 2 ACC plus the bit, truncated to 16 bits. -/
theorem shiftIn_eq_ofNat (a : Word) (b : Bool) : shiftIn a b = BitVec.ofNat 16 (2 * a.toNat + b.toNat) := by
  apply BitVec.eq_of_toNat_eq
  rw [shiftIn_toNat, BitVec.toNat_ofNat]

theorem cnt_add_one_eq_ofNat (c : BitVec 5) : c + 1 = BitVec.ofNat 5 (c.toNat + 1) := by
  rw [BitVec.ofNat_add, BitVec.ofNat_toNat, BitVec.setWidth_eq]
  rfl

/-! ### The branches of the step (R103) -/

/-- An edge of class IDLE discards the bits received so far. -/
theorem rxEdgeStep_of_idle {s : State} (h : idleEdge s = true) :
    rxEdgeStep s = { s with prevTs := s.now, acc := 0, cnt := 0 } := by
  rcases rxEdgeStep_cases s with ⟨-, hstep⟩ | ⟨hbit, -⟩ | ⟨hbit, -⟩
  case inl => exact hstep
  all_goals exact absurd (hbit.symm.trans h) Bool.false_ne_true

/-- A bit before the sixteenth is shifted in. -/
theorem rxEdgeStep_of_bit {s : State} (h : idleEdge s = false) (hcnt : s.cnt.toNat ≠ 15) :
    rxEdgeStep s = { s with prevTs := s.now, acc := shiftIn s.acc (edgeBit s), cnt := s.cnt + 1 } := by
  rcases rxEdgeStep_cases s with ⟨hidle, -⟩ | ⟨-, -, hstep⟩ | ⟨-, hlast, -⟩
  · exact absurd (h.symm.trans hidle) Bool.false_ne_true
  · exact hstep
  · exact absurd hlast hcnt

/-- The sixteenth bit completes the word, which is pushed. -/
theorem rxEdgeStep_of_lastBit {s : State} (h : idleEdge s = false) (hcnt : s.cnt.toNat = 15) :
    rxEdgeStep s = { pushWord (shiftIn s.acc (edgeBit s)) s with prevTs := s.now, acc := 0, cnt := 0 } := by
  rcases rxEdgeStep_cases s with ⟨hidle, -⟩ | ⟨-, hbit, -⟩ | ⟨-, -, hstep⟩
  · exact absurd (h.symm.trans hidle) Bool.false_ne_true
  · exact absurd hcnt hbit
  · exact hstep

/-- A word completed on a full queue is dropped (R107). -/
theorem rxEdgeStep_of_dropped {s : State} (h : idleEdge s = false) (hcnt : s.cnt.toNat = 15) (hfull : full s = true) :
    rxEdgeStep s = { s with prevTs := s.now, acc := 0, cnt := 0 } := by
  rw [rxEdgeStep_of_lastBit h hcnt, pushWord_of_full _ hfull]

/-- A word completed on a queue with room is stored at TAIL. -/
theorem rxEdgeStep_of_stored {s : State} (h : idleEdge s = false) (hcnt : s.cnt.toNat = 15) (hroom : full s = false) :
    rxEdgeStep s = { s with
      prevTs := s.now, acc := 0, cnt := 0
      buf := s.buf.write s.tail.toNat (shiftIn s.acc (edgeBit s)), tail := nextSlot s.tail } := by
  rw [rxEdgeStep_of_lastBit h hcnt, pushWord_of_not_full _ hroom]

/-! ### The statement -/

/-- Settles O13, from the four branches of the step, their conditions and the word put as numbers. The bound on CNT is not
used: it makes the branches exhaustive, and each of them has its own condition on CNT where it needs one. -/
theorem rxEdgeClassifiesAndShifts : Obligations.RxEdgeClassifiesAndShifts := by
  intro s _
  dsimp only
  rw [← edgeElapsed_eq, ← edgeBit_toNat, ← shiftIn_eq_ofNat, ← cnt_add_one_eq_ofNat, ← idleEdge_iff,
    ← idleEdge_false_iff, ← full_iff, ← full_false_iff, ← nextSlot_eq_ofNat, exec_rxEdge]
  refine ⟨fun hidle => ?idle, fun hbit hcnt => ?bit, fun hbit hcnt hfull => ?dropped, fun hbit hcnt hroom => ?stored⟩
  case idle => rw [rxEdgeStep_of_idle hidle]
  case bit => rw [rxEdgeStep_of_bit hbit hcnt.ne]
  case dropped => rw [rxEdgeStep_of_dropped hbit hcnt hfull]
  case stored =>
    rw [rxEdgeStep_of_stored hbit hcnt hroom]
    exact ⟨_, rfl, Memory.read_write_self _ _ _, fun _ => Memory.read_write_other _ _⟩

end Sys2Proof.Machine
end

section
/-! PROOFS. The transmitter (43_transmitter.md): one step of bus-free detection, of the count of an emission's ticks, and of
the drive of the pin. -/

namespace Sys2Proof.Machine

/-! ### The transmitter's part of a tick (R122, R126) -/

/-- R122, R123: in CTS_WAIT a bus found free starts the emission in the same tick; until then the sample of the line is
all that happens. -/
theorem step_ctsWait {s : State} (hpart : s.tickPhase = .transmit) (hwait : s.txph = .ctsWait) :
    step s = if busFree (sampleLine s) then .next ((beginEmission (sampleLine s)).atPhase .drive)
      else .next ((sampleLine s).atPhase .edge) := by
  rw [step_transmit hpart]
  rcases transmitTurn_cases s with ⟨hp, -⟩ | ⟨-, hfree, hstep⟩ | ⟨-, hbusy, hstep⟩ | ⟨hp, -⟩ | ⟨hp, -⟩
  case inr.inl => rw [hstep, if_pos hfree]
  case inr.inr.inl => rw [hstep, if_neg (ne_true_of_eq_false hbusy)]
  all_goals exact nomatch hwait.symm.trans hp

/-- R126, R127: in EMIT TXK advances, and the tick in which it reaches 50 × BIT_TIME ends the emission. -/
theorem step_emit {s : State} (hpart : s.tickPhase = .transmit) (hemit : s.txph = .emit) :
    step s = if (advanceTxk s).txk.toNat = frameTicks s then .next ((endEmission (advanceTxk s)).atPhase .hostEarly)
      else .next ((advanceTxk s).atPhase .drive) := by
  rw [step_transmit hpart]
  rcases transmitTurn_cases s with ⟨hp, -⟩ | ⟨hp, -⟩ | ⟨hp, -⟩ | ⟨-, hlast, hstep⟩ | ⟨-, hmore, hstep⟩
  case inr.inr.inr.inl => rw [hstep, if_pos hlast]
  case inr.inr.inr.inr => rw [hstep, if_neg hmore]
  all_goals exact nomatch hemit.symm.trans hp

/-! ### Bus-free detection (R122) -/

theorem activeRx_iff (s : State) : activeRx s = true ↔ s.rx = s.rxact := beq_iff_eq

/-- R6: an elapsed time as modular subtraction of numbers. -/
theorem elapsed_eq (a b : Stamp) : elapsed a b = (2 ^ 32 + a.toNat - b.toNat) % 2 ^ 32 := by
  rw [elapsed, BitVec.toNat_sub, Nat.sub_add_comm b.isLt.le]

theorem sampleLine_eq (s : State) : sampleLine s = { s with qt := if s.rx = s.rxact then s.now else s.qt } := by
  simp only [sampleLine, activeRx_iff]

theorem busFree_iff (s : State) :
    busFree s = true ↔ s.ctsTime.toNat ≤ (2 ^ 32 + s.now.toNat - s.qt.toNat) % 2 ^ 32 := by
  rw [busFree, decide_eq_true_iff, elapsed_eq]

/-- Settles O19, by the two outcomes of the test on the sampled state. -/
theorem busFreeDetectionTick : Obligations.BusFreeDetectionTick := by
  intro s hpart hwait
  refine ⟨fun hquiet => ?free, fun hquiet => ?busy⟩
  case free =>
    have hfree : busFree (sampleLine s) = true := by rwa [sampleLine_eq, busFree_iff]
    rw [step_ctsWait hpart hwait, if_pos hfree, sampleLine_eq]
    rfl
  case busy =>
    have hbusy : ¬ busFree (sampleLine s) = true := by rwa [sampleLine_eq, busFree_iff, Nat.not_le]
    rw [step_ctsWait hpart hwait, if_neg hbusy, sampleLine_eq]
    rfl

/-! ### The symbols of a frame and their drive (R66, R67, R125) -/

theorem runCoded_of_ok {c : Coded} {i : Instr} {s t : State} (k : State → State) (hdec : decode c = .ok i)
    (hexec : exec i s = .next t) : runCoded c k s = .next (k t) :=
  runCoded_eq_next.2 ⟨i, t, hdec, hexec, rfl⟩

/-- A cell opens with an active chip. -/
theorem chip_cell_first (w : Word) {j : Nat} (hj : j < 16) : chip w (3 * j + 1) = true :=
  (Option.some.inj (chip_of_cell w hj (i := 0) (by decide))).symm

/-- The middle chip of a cell carries its bit. -/
theorem chip_cell_middle (w : Word) {j : Nat} (hj : j < 16) : chip w (3 * j + 2) = w.getLsbD (15 - j) :=
  (Option.some.inj (chip_of_cell w hj (i := 1) (by decide))).symm

/-- A cell closes with an inactive chip. -/
theorem chip_cell_last (w : Word) {j : Nat} (hj : j < 16) : chip w (3 * j + 3) = false :=
  (Option.some.inj (chip_of_cell w hj (i := 2) (by decide))).symm

/-- R66: the symbol of a cell is that of its bit, whichever of its three chips the emission is in. -/
theorem decode_symbolAt_cell (w : Word) {j i : Nat} (hj : j < 16) (hi : i < 3) :
    decode (symbolAt w (3 * j + i + 1)) = .ok (if w.getLsbD (15 - j) then .txsymBit1 else .txsymBit0) := by
  have hstart : 3 * j + i + 1 ≠ 0 := Nat.succ_ne_zero _
  have hstop : 3 * j + i + 1 ≠ 49 := by omega
  have hfirst : 1 + 3 * ((3 * j + i + 1 - 1) / 3) = 3 * j + 1 := by omega
  simp only [symbolAt, if_neg hstart, if_neg hstop, hfirst, chip_cell_first w hj, chip_cell_middle w hj,
    chip_cell_last w hj]
  cases w.getLsbD (15 - j) <;> rfl

/-- R66: one tick of the cell `1 b 0`. -/
theorem exec_cell (b : Bool) (s : State) :
    exec (if b then .txsymBit1 else .txsymBit0) s = .next (driveCell [true, b, false] s) := by
  cases b <;> rfl

/-- R67: the chip that a cell drives is the frame's chip of the same number. -/
theorem driveCell_eq_driveChip {s : State} {j i : Nat} (hj : j < 16) (hi : i < 3)
    (hchip : chipIndex s = 3 * j + i + 1) :
    driveCell [true, s.txw.getLsbD (15 - j), false] s = driveChip (chip s.txw (chipIndex s)) s := by
  have hplace : symbolPosition s = i := by rw [symbolPosition, hchip]; omega
  rw [driveCell, hplace, List.getD_eq_getElem?_getD, chip_of_cell s.txw hj hi, hchip, Option.getD_some]

/-- R125: the symbol that the emission is in drives the chip that the emission is in. -/
theorem runCoded_symbolAt {s : State} (k : State → State) (hc : chipIndex s < 50) :
    runCoded (symbolAt s.txw (chipIndex s)) k s = .next (k (driveChip (chip s.txw (chipIndex s)) s)) := by
  by_cases hstart : chipIndex s = 0
  · rw [hstart]
    exact runCoded_of_ok (i := .txsymStart) k rfl rfl
  by_cases hstop : chipIndex s = 49
  · rw [hstop]
    exact runCoded_of_ok (i := .txsymStop) k rfl rfl
  have hcell : (chipIndex s - 1) / 3 < 16 := by omega
  have hplace : (chipIndex s - 1) % 3 < 3 := Nat.mod_lt _ (by decide)
  have hchip : chipIndex s = 3 * ((chipIndex s - 1) / 3) + (chipIndex s - 1) % 3 + 1 := by omega
  have hdec := decode_symbolAt_cell s.txw hcell hplace
  rw [← hchip] at hdec
  rw [runCoded_of_ok k hdec (exec_cell _ s), driveCell_eq_driveChip hcell hplace hchip]

/-- R125: before TXK reaches 50 × BIT_TIME the emission is in one of the frame's 50 chips. -/
theorem chipIndex_lt {s : State} (hk : s.txk.toNat < 50 * s.bitTime.toNat) : chipIndex s < 50 :=
  Nat.div_lt_of_lt_mul (by rwa [Nat.mul_comm])

/-- The drive of a tick of EMIT. -/
theorem step_drive_emit {s : State} (hpart : s.tickPhase = .drive) (hemit : s.txph = .emit) (hc : chipIndex s < 50) :
    step s = .next ((driveChip (chip s.txw (chipIndex s)) s).atPhase .edge) := by
  rw [step_drive hpart, driveTurn, if_pos hemit, runCoded_symbolAt _ hc]

/-- Settles O22: the chip driven is the one that stands at its place in the frame's string. -/
theorem emissionDrivesTheChip : Obligations.EmissionDrivesTheChip := by
  intro s hpart hemit hk
  have hc : chipIndex s < 50 := chipIndex_lt hk
  exact ⟨chip s.txw (chipIndex s), frameString_getElem? s.txw hc, step_drive_emit hpart hemit hc⟩

/-! ### The count of an emission's ticks (R126) -/

theorem advanceTxk_eq (s : State) : advanceTxk s = { s with txk := BitVec.ofNat 22 (s.txk.toNat + 1) } := by
  rw [BitVec.ofNat_add, BitVec.ofNat_toNat, BitVec.setWidth_eq]
  rfl

/-- 50 × BIT_TIME is below 2^22, so TXK does not wrap within an emission. -/
theorem advanceTxk_txk_toNat {s : State} (hk : s.txk.toNat < 50 * s.bitTime.toNat) :
    (advanceTxk s).txk.toNat = s.txk.toNat + 1 := by
  have hbit : s.bitTime.toNat < 2 ^ 16 := s.bitTime.isLt
  have hfit : s.txk.toNat + 1 < 2 ^ 22 := by omega
  rw [advanceTxk_eq, BitVec.toNat_ofNat, Nat.mod_eq_of_lt hfit]

/-- Settles O23, by the test of the advanced TXK against 50 × BIT_TIME. -/
theorem emissionAdvancesAndEnds : Obligations.EmissionAdvancesAndEnds := by
  intro s hpart hemit hk
  have hcount : (advanceTxk s).txk.toNat = s.txk.toNat + 1 := advanceTxk_txk_toNat hk
  refine ⟨fun hbelow => ?goesOn, fun hend => ?ends⟩
  case goesOn =>
    have hmore : (advanceTxk s).txk.toNat ≠ frameTicks s := hcount.trans_ne hbelow.ne
    rw [step_emit hpart hemit, if_neg hmore, advanceTxk_eq]
    rfl
  case ends =>
    have hlast : (advanceTxk s).txk.toNat = frameTicks s := hcount.trans hend
    rw [step_emit hpart hemit, if_pos hlast, advanceTxk_eq]
    rfl

end Sys2Proof.Machine
end

section
/-! PROOFS. Initialise and the timing registers (44_timing_registers.md): the two views as numbers, and what the eleven
operations do after INIT, or in the case of INIT before it. -/

namespace Sys2Proof.Machine

/-! ### The operations -/

/-- R140: the first INIT is carried out. -/
theorem exec_init_of {s : State} (t r : Bool) (h : s.initd = false) :
    exec (.init t r) s = .next (initialise t r s) :=
  if_neg (ne_true_of_eq_false h)

theorem exec_rdCfg_of {s : State} (h : s.initd = true) : exec .rdCfg s = .next (s.answer (cfgView s)) :=
  answering_of _ h

theorem exec_rdStatus_of {s : State} (h : s.initd = true) :
    exec .rdStatus s = .next (s.answer (statusView s)) := answering_of _ h

theorem exec_rdBitTime_of {s : State} (h : s.initd = true) : exec .rdBitTime s = .next (s.answer s.bitTime) :=
  answering_of _ h

theorem exec_rdZeroTime_of {s : State} (h : s.initd = true) : exec .rdZeroTime s = .next (s.answer s.zeroTime) :=
  answering_of _ h

theorem exec_rdIdleTime_of {s : State} (h : s.initd = true) : exec .rdIdleTime s = .next (s.answer s.idleTime) :=
  answering_of _ h

theorem exec_rdCtsTime_of {s : State} (h : s.initd = true) : exec .rdCtsTime s = .next (s.answer s.ctsTime) :=
  answering_of _ h

theorem exec_wrBitTime_of {s : State} (v : Word) (h : s.initd = true) :
    exec (.wrBitTime v) s = keepingForm v s.zeroTime { s with bitTime := v, result := 0 } :=
  whenInitialised_of _ h

theorem exec_wrZeroTime_of {s : State} (v : Word) (h : s.initd = true) :
    exec (.wrZeroTime v) s =
      if zeroTimeFits v s then .next { s with zeroTime := v, result := 0 } else .refused .illFormedConfiguration :=
  whenInitialised_of _ h

theorem exec_wrIdleTime_of {s : State} (v : Word) (h : s.initd = true) :
    exec (.wrIdleTime v) s = .next { s with idleTime := v, result := 0 } := whenInitialised_of _ h

theorem exec_wrCtsTime_of {s : State} (v : Word) (h : s.initd = true) :
    exec (.wrCtsTime v) s = .next { s with ctsTime := v, result := 0 } := whenInitialised_of _ h

/-! ### The constraint on BIT_TIME and ZERO_TIME (R8, R146, R147) -/

theorem wellFormedTimes_iff (b z : Word) :
    wellFormedTimes b z = true ↔ 1 ≤ b.toNat ∧ z.toNat < 2 * b.toNat := by
  rw [wellFormedTimes, Bool.and_eq_true, decide_eq_true_iff, decide_eq_true_iff]

/-- R147: a write that would break the constraint is refused. -/
theorem keepingForm_of_illFormed {b z : Word} (s : State) (h : ¬ (1 ≤ b.toNat ∧ z.toNat < 2 * b.toNat)) :
    keepingForm b z s = .refused .illFormedConfiguration :=
  if_neg (mt (wellFormedTimes_iff b z).1 h)

theorem zeroTimeFits_iff (v : Word) (s : State) : zeroTimeFits v s = true ↔ v.toNat < 2 * s.bitTime.toNat :=
  decide_eq_true_iff

/-! ### The views, as numbers (R31, R142) -/

/-- Bits put side by side are the digits of a number. -/
theorem append_toNat {n m : Nat} (x : BitVec n) (y : BitVec m) : (x ++ y).toNat = x.toNat * 2 ^ m + y.toNat := by
  rw [BitVec.toNat_append, ← Nat.shiftLeft_add_eq_or_of_lt y.isLt, Nat.shiftLeft_eq]

theorem cfgView_toNat (s : State) : (cfgView s).toNat = 2 * s.txact.toNat + s.rxact.toNat := by
  simp only [cfgView, append_toNat, BitVec.toNat_ofBool, BitVec.ofNat_eq_ofNat, BitVec.toNat_zero]
  omega

theorem statusView_toNat (s : State) :
    (statusView s).toNat = 16 * s.initd.toNat + 8 * s.rxen.toNat + 4 * (txBusy s).toNat + 2 * (full s).toNat +
      (empty s).toNat := by
  simp only [statusView, append_toNat, BitVec.toNat_ofBool, BitVec.ofNat_eq_ofNat, BitVec.toNat_zero]
  omega

theorem txBusy_false_iff (s : State) : txBusy s = false ↔ s.txph = .idle := bne_eq_false_iff_eq

theorem txBusy_toNat (s : State) : (txBusy s).toNat = if s.txph = .idle then 0 else 1 := by
  split
  case isTrue hidle => rw [(txBusy_false_iff s).2 hidle, Bool.toNat_false]
  case isFalse hbusy => rw [eq_true_of_ne_false (mt (txBusy_false_iff s).1 hbusy), Bool.toNat_true]

theorem full_toNat (s : State) :
    (full s).toNat = if (s.tail.toNat + 1) % 64 = s.head.toNat then 1 else 0 := by
  simp only [← full_iff, Bool.toNat, Bool.cond_eq_ite]

theorem empty_toNat (s : State) : (empty s).toNat = if s.head = s.tail then 1 else 0 := by
  simp only [← empty_iff, Bool.toNat, Bool.cond_eq_ite]

/-! ### The status of a free host in a good state (R143) -/

/-- R18: with the transmitter IDLE the decoder path is on. -/
theorem rxen_of_idle {s : State} (htransmit : TransmitInv s) (hinit : s.initd = true) (hidle : s.txph = .idle) :
    s.rxen = true := by
  obtain ⟨-, hrxen, -, -⟩ := htransmit
  have hquiet : s.txph ≠ .emit := hidle.trans_ne nofun
  exact hrxen.2 ⟨hinit, hquiet⟩

/-- R143: STATUS depends on COUNT alone once INITD and RXEN are 1 and TXBUSY is 0. -/
theorem statusView_of_idle {s : State} (hinit : s.initd = true) (hrxen : s.rxen = true) (hidle : s.txph = .idle) :
    statusView s = if count s = 0 then 0x0019 else if count s = 63 then 0x001A else 0x0018 := by
  have hbusy : txBusy s = false := (txBusy_false_iff s).2 hidle
  rw [statusView, hinit, hrxen, hbusy]
  split_ifs with hnone hall
  case pos =>
    have hroom : full s = false := (full_false_iff_count s).2 (hnone.trans_ne (by decide))
    rw [(empty_iff_count s).2 hnone, hroom]
    rfl
  case pos =>
    rw [(empty_false_iff_count s).2 hnone, (full_iff_count s).2 hall]
    rfl
  case neg =>
    rw [(empty_false_iff_count s).2 hnone, (full_false_iff_count s).2 hall]
    rfl

/-! ### The statements -/

/-- Settles O32, from STATUS as a number and, in a good state, from RXEN and the two flags on COUNT. -/
theorem rdStatusReturnsTheView : Obligations.RdStatusReturnsTheView := by
  intro a s
  refine ⟨decodeCommand_append 0b01100#5 a, fun hinit => ⟨statusView s, exec_rdStatus_of hinit, ?bits, ?values⟩⟩
  case bits =>
    rw [← txBusy_toNat, ← full_toNat, ← empty_toNat, ← statusView_toNat, BitVec.ofNat_toNat, BitVec.setWidth_eq]
  case values =>
    rintro ⟨-, -, htransmit, -⟩ hidle
    exact statusView_of_idle hinit (rxen_of_idle htransmit hinit hidle) hidle

/-- Settles O29, from the operation map and what the first INIT writes. -/
theorem initSetsPolarityAndEnables : Obligations.InitSetsPolarityAndEnables := by
  intro a t r s
  refine ⟨decodeCommand_append 0b00001#5 a, fun hbefore => ?_⟩
  rw [exec_init_of t r hbefore, initialise, activeLevel, activeLevel]

/-- Settles O31, from the operation map and CFG as a number. -/
theorem rdCfgReturnsThePolarities : Obligations.RdCfgReturnsThePolarities := by
  intro a s
  refine ⟨decodeCommand_append 0b01101#5 a, fun hinit => ?_⟩
  rw [exec_rdCfg_of hinit, ← cfgView_toNat, BitVec.ofNat_toNat, BitVec.setWidth_eq, State.answer]

/-- Settles O33, from the operation map, the four reads and the reset values of the configuration. -/
theorem timingReadsReturnTheRegisters : Obligations.TimingReadsReturnTheRegisters := by
  intro a s
  refine ⟨decodeCommand_append 0b10000#5 a, decodeCommand_append 0b10001#5 a, decodeCommand_append 0b10010#5 a,
    decodeCommand_append 0b10011#5 a, fun hinit => ?reads, ?reset⟩
  case reads =>
    exact ⟨exec_rdBitTime_of hinit, exec_rdZeroTime_of hinit, exec_rdIdleTime_of hinit, exec_rdCtsTime_of hinit⟩
  case reset => exact ⟨rfl, rfl, rfl, rfl⟩

/-- Settles O34, by the constraint on the new BIT_TIME and the old ZERO_TIME. -/
theorem wrBitTimeKeepsTheConstraint : Obligations.WrBitTimeKeepsTheConstraint := by
  intro v s
  refine ⟨decodeCommand_append 0b10100#5 v, fun hinit hpos hbelow => ?writes, fun hinit hill => ?refused⟩
  all_goals rw [exec_wrBitTime_of v hinit]
  case writes => exact keepingForm_eq_next.2 ⟨⟨hpos, hbelow⟩, rfl⟩
  case refused => exact keepingForm_of_illFormed _ hill

/-- Settles O35, by the comparison of the new ZERO_TIME with 2 × BIT_TIME. -/
theorem wrZeroTimeKeepsTheConstraint : Obligations.WrZeroTimeKeepsTheConstraint := by
  intro v s
  refine ⟨decodeCommand_append 0b10101#5 v, fun hinit hbelow => ?writes, fun hinit habove => ?refused⟩
  all_goals rw [exec_wrZeroTime_of v hinit]
  case writes => rw [if_pos ((zeroTimeFits_iff v s).2 hbelow)]
  case refused => rw [if_neg (mt (zeroTimeFits_iff v s).1 habove.not_gt)]

/-- Settles O36, from the operation map and the two writes, which have no condition beyond INITD. -/
theorem wrIdleAndCtsTimeAcceptEveryValue : Obligations.WrIdleAndCtsTimeAcceptEveryValue := by
  intro v s
  exact ⟨decodeCommand_append 0b10110#5 v, decodeCommand_append 0b10111#5 v,
    fun hinit => ⟨exec_wrIdleTime_of v hinit, exec_wrCtsTime_of v hinit⟩⟩

end Sys2Proof.Machine
end

section
/-! PROOFS. The machine after reset (R210, R211): an empty queue over storage that nothing has written, the status that
follows from it, and RXPREV as the activity of the line at the first tick. -/

namespace Sys2Proof.Machine

theorem Memory.read_nil (a : Nat) : Memory.read [] a = none := rfl

theorem count_reset : count State.reset = 0 := rfl

theorem empty_reset : empty State.reset = true := (empty_iff_count State.reset).2 count_reset

theorem full_reset : full State.reset = false :=
  (full_false_iff_count State.reset).2 (count_reset.trans_ne (by decide))

theorem txBusy_reset : txBusy State.reset = false := (txBusy_false_iff State.reset).2 rfl

/-- R211: EMPTY is the one bit of STATUS set at reset, with INITD and RXEN still 0. -/
theorem statusView_reset : statusView State.reset = 0x0001 := by
  have hinit : State.reset.initd = false := rfl
  have hrxen : State.reset.rxen = false := rfl
  rw [statusView, hinit, hrxen, txBusy_reset, full_reset, empty_reset]
  rfl

/-- R17, R211: RXPREV is the activity at the first tick, so that this tick shows no edge, whatever the open level of the
line is. -/
theorem rxprev_reset : State.reset.rxprev = activeRx State.reset := rfl

/-- R13: before the first push no slot holds a value. -/
theorem read_buf_reset (a : Nat) : State.reset.buf.read a = none := Memory.read_nil a

/-- Settles O51: a register's reset value is its field of `State.reset`; the flags, RXPREV, STATUS and BUF have the
lemmas above. -/
theorem resetIsTheRulesTable : Obligations.ResetIsTheRulesTable := by
  unfold Obligations.ResetIsTheRulesTable
  refine ⟨?prevTs, ?acc, ?cnt, ?head, ?tail, empty_reset, full_reset, rxprev_reset, ?rxen, ?txw, ?qt, ?txph, ?txk, ?txoe,
    ?rxact, ?txact, ?initd, ?bitTime, ?zeroTime, ?idleTime, ?ctsTime, statusView_reset, read_buf_reset⟩
  all_goals rfl

end Sys2Proof.Machine
end

section
/-! PROOFS. Encoding and decoding (30_encoding.md sections 1, 3 and 4). -/

namespace Sys2Proof.Machine

/-- R140: the two flags of INIT survive encoding. -/
theorem decode_encode_init (t r : Bool) : decode (encode (.init t r)) = .ok (.init t r) := by
  have hmap : decode (encode (.init t r)) = .ok (.init ((initArg t r).getLsbD 1) ((initArg t r).getLsbD 0)) :=
    decodeCommand_append 0x01 (initArg t r)
  rw [hmap, initArg_getLsbD_one, initArg_getLsbD_zero]

/-- A plain word that no row of the Code to Event table names is read as a plain word. -/
theorem decodeWord_of_not_mem {w : Word} (h : w ∉ eventWords) : decodeWord w = .ok (.word w) := by
  simp only [eventWords, List.mem_cons, List.not_mem_nil, or_false, not_or] at h
  obtain ⟨halarm, hsensorA, hsensorB⟩ := h
  rw [decodeWord, if_neg halarm, if_neg hsensorA, if_neg hsensorB]

theorem wellFormed_word_iff (w : Word) : (Instr.word w).wellFormed = true ↔ w ∉ eventWords := by
  simp [Instr.wellFormed]

/-- Settles O39, row by row: the operation map at each code, the inverse law of frames, and for a plain word its
well-formedness. -/
theorem decodeInvertsEncode : Obligations.DecodeInvertsEncode := by
  intro i hi
  cases i with
  | init t r => exact decode_encode_init t r
  | qPush w => exact decodeCommand_append 0x02 w
  | pktParity w => exact decodeCommand_append 0x06 w
  | pktId w => exact decodeCommand_append 0x07 w
  | pktData w => exact decodeCommand_append 0x08 w
  | pktChk w => exact decodeCommand_append 0x09 w
  | pktValid w => exact decodeCommand_append 0x0A w
  | txSend w => exact decodeCommand_append 0x0B w
  | wrBitTime v => exact decodeCommand_append 0x14 v
  | wrZeroTime v => exact decodeCommand_append 0x15 v
  | wrIdleTime v => exact decodeCommand_append 0x16 v
  | wrCtsTime v => exact decodeCommand_append 0x17 v
  | txFrame w => exact decodeFrame_frameBits w
  | word w => exact decodeWord_of_not_mem ((wellFormed_word_iff w).1 hi)
  | _ => rfl

/-- Settles O40: each word is closed, so the decoder evaluates on it. -/
theorem writtenOutWordsDecode : Obligations.WrittenOutWordsDecode := by
  refine ⟨?init, ?push, ?send, ?bitTime, ?event, ?symbol, ?frame, ?word, ?keyWord⟩
  case frame => exact decodeFrame_frameBits 0x00CF
  all_goals rfl

end Sys2Proof.Machine
end

section
/-! PROOFS. The framing of a word by the bit-timing decoder (R64, R105, R114): an idle edge opens the word, and each
of the sixteen edges after it takes one bit of it, bit 15 first; and what the decoder's step keeps of the queue (R96).
-/

namespace Sys2Proof.Machine

/-! ### Time (R102, R111) -/

theorem elapsed_add_left (p e : Stamp) : elapsed (p + e) p = e.toNat := by
  rw [elapsed, BitVec.add_comm, BitVec.add_sub_cancel]

/-- Settles O12, by the difference of modular numbers. -/
theorem elapsedTimeIsModular : Obligations.ElapsedTimeIsModular := by
  intro p g
  rw [elapsed_add_left, BitVec.toNat_ofNat]

/-! ### A word in reception -/

/-- The state in which `k` bits of the word `w` have been received since the idle edge, the last edge at time `n`: ACC
holds the `k` highest bits of `w`. -/
def receiving (s : State) (w : Word) (k : Nat) (n : Stamp) : State :=
  { s with now := n, prevTs := n, acc := w >>> (16 - k), cnt := BitVec.ofNat 5 k }

/-- The state of the edge that follows after the interval `e`. -/
def edgeAfter (s : State) (e : Stamp) : State := { s with now := s.prevTs + e }

theorem edgeElapsed_edgeAfter (s : State) (e : Stamp) : edgeElapsed (edgeAfter s e) = e.toNat :=
  elapsed_add_left s.prevTs e

theorem edges_cons (e : Stamp) (es : List Stamp) (s : State) :
    edges (e :: es) s = edges es (rxEdgeStep (edgeAfter s e)) := rfl

theorem receiving_cnt_toNat (s : State) (w : Word) {k : Nat} (n e : Stamp) (hk : k < 16) :
    (edgeAfter (receiving s w k n) e).cnt.toNat = k :=
  Nat.mod_eq_of_lt (hk.trans (by decide))

/-- R64: an interval of class IDLE opens a word of which no bit has been received, whatever the word will be. -/
theorem rxEdgeStep_opens {s : State} {gap : Stamp} (w : Word) (h : s.idleTime.toNat < gap.toNat) :
    rxEdgeStep (edgeAfter s gap) = receiving s w 0 (s.prevTs + gap) := by
  have hidle : idleEdge (edgeAfter s gap) = true := by
    rw [idleEdge_iff, edgeElapsed_edgeAfter]
    exact h
  have hacc : w >>> (16 - 0) = 0 := BitVec.ushiftRight_eq_zero (Nat.le_refl 16)
  rw [rxEdgeStep_of_idle hidle, receiving, hacc]
  rfl

/-- Shifting in the next bit of `w` turns its k highest bits into its k + 1 highest bits. -/
theorem shiftIn_ushiftRight (w : Word) {k : Nat} (hk : k < 16) :
    shiftIn (w >>> (16 - k)) (w.getLsbD (15 - k)) = w >>> (15 - k) := by
  have hplace : 16 - k = (15 - k) + 1 := by omega
  have hfit : w.toNat / 2 ^ (15 - k) < 2 ^ 16 := lt_of_le_of_lt (Nat.div_le_self _ _) w.isLt
  apply BitVec.eq_of_toNat_eq
  rw [shiftIn_toNat, BitVec.toNat_ushiftRight, BitVec.toNat_ushiftRight, Nat.shiftRight_eq_div_pow,
    Nat.shiftRight_eq_div_pow, hplace, Nat.pow_succ, ← Nat.div_div_eq_div_mul, BitVec.getLsbD,
    Nat.toNat_testBit]
  omega

/-- The interval carries the bit it is classed with (R63). -/
theorem bitInterval_iff (s : State) (b : Bool) (e : Stamp) :
    bitInterval s b e = true ↔ e.toNat ≤ s.idleTime.toNat ∧ b = decide (s.zeroTime.toNat < e.toNat) := by
  rw [bitInterval, Bool.and_eq_true, decide_eq_true_iff, beq_iff_eq]

section
variable {s : State} {w : Word} {k : Nat} {e n : Stamp} (he : bitInterval s (w.getLsbD (15 - k)) e = true)
include he

theorem idleEdge_of_bitInterval : idleEdge (edgeAfter (receiving s w k n) e) = false := by
  rw [idleEdge_false_iff, edgeElapsed_edgeAfter]
  exact ((bitInterval_iff _ _ _).1 he).1

theorem edgeBit_of_bitInterval : edgeBit (edgeAfter (receiving s w k n) e) = w.getLsbD (15 - k) := by
  rw [edgeBit, edgeElapsed_edgeAfter, ((bitInterval_iff _ _ _).1 he).2]
  rfl

theorem shiftIn_receiving (hk : k < 16) :
    shiftIn (edgeAfter (receiving s w k n) e).acc (edgeBit (edgeAfter (receiving s w k n) e)) = w >>> (15 - k) := by
  rw [edgeBit_of_bitInterval he]
  exact shiftIn_ushiftRight w hk

/-- R105: an edge before the last takes one more bit. -/
theorem rxEdgeStep_receiving (hk : k < 15) :
    rxEdgeStep (edgeAfter (receiving s w k n) e) = receiving s w (k + 1) (n + e) := by
  have hk16 : k < 16 := hk.trans (by decide)
  have hcnt : (edgeAfter (receiving s w k n) e).cnt.toNat ≠ 15 := (receiving_cnt_toNat s w n e hk16).trans_ne hk.ne
  have hplace : 16 - (k + 1) = 15 - k := by omega
  rw [rxEdgeStep_of_bit (idleEdge_of_bitInterval he) hcnt, shiftIn_receiving he hk16, receiving, receiving, hplace,
    BitVec.ofNat_add]
  rfl
end

/-- A push does not look at the decoder's registers or at the time. -/
theorem pushWord_edgeAfter_receiving (v : Word) (s : State) (w : Word) (k : Nat) (n e : Stamp) :
    pushWord v (edgeAfter (receiving s w k n) e) = edgeAfter (receiving (pushWord v s) w k n) e := by
  have hfull : full (edgeAfter (receiving s w k n) e) = full s := rfl
  rcases pushWord_cases v s with ⟨h, hpush⟩ | ⟨h, hpush⟩
  · rw [hpush, pushWord_of_full v (hfull.trans h)]
  · rw [hpush, pushWord_of_not_full v (hfull.trans h)]
    rfl

/-- R105, R114: the last edge pushes the word and leaves ACC and CNT clear. -/
theorem rxEdgeStep_completes {s : State} {w : Word} {e n : Stamp} (he : bitInterval s (w.getLsbD 0) e = true) :
    rxEdgeStep (edgeAfter (receiving s w 15 n) e) =
      { pushWord w s with now := n + e, prevTs := n + e, acc := 0, cnt := 0 } := by
  have hidle : idleEdge (edgeAfter (receiving s w 15 n) e) = false := idleEdge_of_bitInterval (k := 15) he
  have hacc : shiftIn (edgeAfter (receiving s w 15 n) e).acc (edgeBit (edgeAfter (receiving s w 15 n) e)) = w :=
    shiftIn_receiving (k := 15) he (by decide)
  rw [rxEdgeStep_of_lastBit hidle (receiving_cnt_toNat s w n e (by decide)), hacc,
    pushWord_edgeAfter_receiving]
  rfl

/-- The edges of the bits not yet received complete the word. -/
theorem edges_receiving {s : State} {w : Word} {k : Nat} {es : List Stamp} (hlength : es.length + k = 16) (hk : k < 16)
    (hes : ∀ i (hi : i < es.length), bitInterval s (w.getLsbD (15 - (k + i))) es[i] = true) (n : Stamp) :
    ∃ m, edges es (receiving s w k n) = some { pushWord w s with now := m, prevTs := m, acc := 0, cnt := 0 } := by
  induction es generalizing k n with
  | nil => simp only [List.length_nil] at hlength; omega
  | cons e es ih =>
    rw [List.length_cons] at hlength
    have he : bitInterval s (w.getLsbD (15 - k)) e = true := hes 0 (Nat.succ_pos _)
    rw [edges_cons]
    by_cases hlast : k = 15
    · subst hlast
      have hnil : es = [] := List.eq_nil_of_length_eq_zero (by omega)
      rw [rxEdgeStep_completes he, hnil]
      exact ⟨n + e, rfl⟩
    · rw [rxEdgeStep_receiving he (by omega)]
      refine ih (by omega) (by omega) (fun i hi => ?_) (n + e)
      rw [Nat.add_assoc, Nat.add_comm 1 i]
      exact hes (i + 1) (Nat.succ_lt_succ hi)

theorem wordIntervals_iff (s : State) (w : Word) (es : List Stamp) :
    wordIntervals s w es = true ↔
      es.length = 16 ∧ ∀ i (hi : i < es.length), bitInterval s (w.getLsbD (15 - i)) es[i] = true := by
  simp only [wordIntervals, Bool.and_eq_true, decide_eq_true_iff, List.all_eq_true, List.mem_range]
  refine and_congr_right fun hlength => ?_
  refine forall_congr' fun i => ⟨fun h hi => ?_, fun h hi => ?_⟩
  · rw [← List.getD_eq_getElem es 0 hi]
    exact h (hlength ▸ hi)
  · rw [List.getD_eq_getElem es 0 (hlength.symm ▸ hi)]
    exact h (hlength.symm ▸ hi)

/-- Settles O14: the idle edge opens the word, and by induction over the sixteen edges after it ACC holds ever more of
its highest bits, until all of them are pushed. -/
theorem seventeenEdgesDeliverTheWord : Obligations.SeventeenEdgesDeliverTheWord := by
  intro s w gap es hgap hes
  obtain ⟨hlength, hbits⟩ := (wordIntervals_iff s w es).1 hes
  have hall : ∀ i (hi : i < es.length), bitInterval s (w.getLsbD (15 - (0 + i))) es[i] = true := by
    simpa only [Nat.zero_add] using hbits
  obtain ⟨n, hn⟩ := edges_receiving (k := 0) hlength (by decide) hall (s.prevTs + gap)
  refine ⟨n, (pushWord w s).buf, (pushWord w s).tail, ?run, fun hfull => ?dropped, fun hroom => ?stored⟩
  case run => rw [edges_cons, rxEdgeStep_opens w hgap, hn, pushWord_eq]
  case dropped => rw [pushWord_of_full w hfull]; exact ⟨rfl, rfl⟩
  case stored =>
    rw [pushWord_of_not_full w hroom]
    exact ⟨rfl, Memory.read_write_self _ _ _, fun _ => Memory.read_write_other _ _⟩

/-! ### The queue under the decoder's step (R96) -/

/-- The decoder's step leaves the queue alone or pushes one word. -/
theorem rxEdgeStep_queue (s : State) :
    ((rxEdgeStep s).buf = s.buf ∧ (rxEdgeStep s).tail = s.tail) ∨
    ∃ w, (rxEdgeStep s).buf = (pushWord w s).buf ∧ (rxEdgeStep s).tail = (pushWord w s).tail := by
  rcases rxEdgeStep_cases s with ⟨-, h⟩ | ⟨-, -, h⟩ | ⟨-, -, h⟩
  · exact .inl (by rw [h]; exact ⟨rfl, rfl⟩)
  · exact .inl (by rw [h]; exact ⟨rfl, rfl⟩)
  · exact .inr ⟨_, by rw [h]; exact ⟨rfl, rfl⟩⟩

@[simp] theorem rxEdgeStep_head (s : State) : (rxEdgeStep s).head = s.head := by rw [rxEdgeStep_eq]

theorem count_congr {s t : State} (hhead : t.head = s.head) (htail : t.tail = s.tail) : count t = count s := by
  rw [count, count, hhead, htail]

/-- The decoder's step takes no word away. -/
theorem count_le_count_rxEdgeStep (s : State) : count s ≤ count (rxEdgeStep s) := by
  rcases rxEdgeStep_queue s with ⟨-, htail⟩ | ⟨w, -, htail⟩
  · rw [count_congr (rxEdgeStep_head s) htail]
  · have hcount : count (rxEdgeStep s) = count (pushWord w s) :=
      count_congr ((rxEdgeStep_head s).trans (pushWord_head w s).symm) htail
    have hlt : count s < 64 := count_lt s
    rw [hcount, count_pushWord]
    split <;> omega

/-- The decoder's step keeps every word held. -/
theorem queueWord_rxEdgeStep {s : State} {k : Nat} (hk : k < count s) :
    queueWord (rxEdgeStep s) k = queueWord s k := by
  rcases rxEdgeStep_queue s with ⟨hbuf, -⟩ | ⟨w, hbuf, -⟩
  · rw [queueWord, queueWord, hbuf, rxEdgeStep_head]
  · rw [← queueWord_pushWord_of_lt w hk, queueWord, queueWord, hbuf, rxEdgeStep_head, pushWord_head]

/-- Settles O11, from COUNT, which does not fall, and the words held, which stay. -/
theorem seenNotEmptyStaysNotEmpty : Obligations.SeenNotEmptyStaysNotEmpty := by
  intro s hs
  have hheld : 0 < count s := Nat.pos_of_ne_zero ((empty_false_iff_count s).1 hs)
  refine ⟨rxEdgeStep s, exec_rxEdge s, ?notEmpty, rxEdgeStep_head s, ?slot⟩
  case notEmpty => exact (empty_false_iff_count _).2 (hheld.trans_le (count_le_count_rxEdgeStep s)).ne'
  case slot =>
    rw [← queueWord_zero, ← queueWord_rxEdgeStep hheld, queueWord_zero, rxEdgeStep_head]

/-! ### The edge detector (R18, R100, R109) -/

/-- Settles O15, by the value of the three condition bits. -/
theorem edgeDetectorGatesTheDecoder : Obligations.EdgeDetectorGatesTheDecoder := by
  intro s hpart
  rw [← eventBits_eq_iff, step_edge hpart]
  refine ⟨fun hevent => ⟨rxEdgeStep s, exec_rxEdge s, ?taken⟩, fun hnone => ?lost⟩
  all_goals rcases edgeTurn_cases s with ⟨hbits, hturn⟩ | ⟨hbits, hturn⟩
  case taken.inl =>
    obtain ⟨-, hactive, -⟩ := (eventBits_eq_iff s).1 hevent
    have hprev : activeRx (rxEdgeStep s) = true := by
      rw [rxEdgeStep_eq]
      exact (activeRx_iff s).2 hactive
    rw [hturn, afterEdge, hprev]
  case taken.inr => exact absurd hevent hbits
  case lost.inl => exact absurd hbits hnone
  case lost.inr => rw [hturn, afterEdge, activeRx]

end Sys2Proof.Machine
end

section
/-! PROOFS. Runs of the transmitter (43_transmitter.md): the waiting ticks of bus-free detection on a silent line, the
ticks of an emission, and what the transmitter's parts of a tick leave alone. -/

namespace Sys2Proof.Machine

/-! ### Runs -/

theorem run_succ {s t : State} (n : Nat) (h : step s = .next t) : run (n + 1) s = run n t := by
  simp only [run, h]

theorem run_one {s t : State} (h : step s = .next t) : run 1 s = .next t := run_succ 0 h

/-- A run of m steps that ends in `t` and then n more. -/
theorem run_add {s t : State} {m : Nat} (h : run m s = .next t) (n : Nat) : run (m + n) s = run n t := by
  induction m generalizing s with
  | zero =>
    cases h
    rw [Nat.zero_add]
  | succ m ih =>
    rw [run] at h
    split at h
    case h_1 u hu => rw [Nat.add_right_comm, run_succ _ hu, ih h]
    case h_2 => nomatch h
    case h_3 => nomatch h

/-- A run and one step more. -/
theorem run_snoc {s t u : State} {n : Nat} (h : run n s = .next t) (hstep : step t = .next u) :
    run (n + 1) s = .next u :=
  (run_add h 1).trans (run_one hstep)

/-! ### A tick in which nothing but the transmitter acts (R4, R18) -/

theorem step_edge_of_no_event {s : State} (hpart : s.tickPhase = .edge) (hnone : eventBits s ≠ 0b110) :
    step s = .next (afterEdge s) := by
  rw [step_edge hpart]
  rcases edgeTurn_cases s with ⟨hevent, -⟩ | ⟨-, hturn⟩
  · exact absurd hevent hnone
  · exact hturn

/-- R4: HOST is blocked while a transmission is in progress. -/
theorem hostTurn_of_busy {s : State} (hbusy : s.txph ≠ .idle) : hostTurn s = .next (passTurn s) := by
  rw [hostTurn, if_neg hbusy]

theorem passTurn_hostEarly {s : State} (hpart : s.tickPhase = .hostEarly) : passTurn s = s.atPhase .edge := by
  rw [passTurn, if_pos hpart]

theorem passTurn_hostLate {s : State} (hpart : s.tickPhase = .hostLate) : passTurn s = newTick s := by
  rw [passTurn, if_neg (by rw [hpart]; decide)]

theorem step_hostLate_of_busy {s : State} (hpart : s.tickPhase = .hostLate) (hbusy : s.txph ≠ .idle) :
    step s = .next (newTick s) := by
  rw [step_hostLate hpart, hostTurn_of_busy hbusy, passTurn_hostLate hpart]

/-- From the edge detector's part to the next tick, with no event for DEC and HOST blocked. -/
theorem run_to_next_tick {s : State} (hpart : s.tickPhase = .edge) (hnone : eventBits s ≠ 0b110)
    (hbusy : s.txph ≠ .idle) : run 2 s = .next (newTick (afterEdge s)) := by
  rw [run_succ 1 (step_edge_of_no_event hpart hnone)]
  exact run_one (step_hostLate_of_busy rfl hbusy)

theorem eventBits_ne_of_rxen {s : State} (h : s.rxen = false) : eventBits s ≠ 0b110 := by
  rw [Ne, eventBits_eq_iff, h]
  exact fun hevent => Bool.false_ne_true hevent.1

theorem eventBits_ne_of_inactive {s : State} (h : s.rx ≠ s.rxact) : eventBits s ≠ 0b110 := by
  rw [Ne, eventBits_eq_iff]
  exact fun hevent => h hevent.2.1

/-! ### Waiting on a silent line (R122, R133) -/

/-- The sample of an inactive line does not restart the quiet timer. -/
theorem sampleLine_of_inactive {s : State} (h : s.rx ≠ s.rxact) : sampleLine s = s := by
  rw [sampleLine_eq, if_neg h]

/-- The state at the next tick, after a tick of waiting on an inactive line. -/
def waitedTick (s : State) : State := newTick (afterEdge (s.atPhase .edge))

/-- A tick of CTS_WAIT on an inactive line in which CTS_TIME has not elapsed. -/
theorem run_waiting_tick {s : State} (hpart : s.tickPhase = .transmit) (hwait : s.txph = .ctsWait)
    (hquiet : s.rx ≠ s.rxact) (hbusy : elapsed s.now s.qt < s.ctsTime.toNat) : run 3 s = .next (waitedTick s) := by
  have hmore : ¬ busFree (sampleLine s) = true := by
    rw [sampleLine_of_inactive hquiet, busFree, decide_eq_true_iff]
    exact hbusy.not_ge
  have hstep : step s = .next (s.atPhase .edge) := by
    rw [step_ctsWait hpart hwait, if_neg hmore, sampleLine_of_inactive hquiet]
  have hblocked : s.txph ≠ .idle := hwait.trans_ne nofun
  rw [run_succ 2 hstep]
  exact run_to_next_tick rfl (eventBits_ne_of_inactive hquiet) hblocked

/-- The tick of CTS_WAIT on an inactive line in which CTS_TIME is reached. -/
theorem step_bus_free {s : State} (hpart : s.tickPhase = .transmit) (hwait : s.txph = .ctsWait)
    (hquiet : s.rx ≠ s.rxact) (hfree : s.ctsTime.toNat ≤ elapsed s.now s.qt) :
    step s = .next ((beginEmission s).atPhase .drive) := by
  have htest : busFree (sampleLine s) = true := by
    rw [sampleLine_of_inactive hquiet, busFree, decide_eq_true_iff]
    exact hfree
  rw [step_ctsWait hpart hwait, if_pos htest, sampleLine_of_inactive hquiet]

/-- A tick adds one to an elapsed time that does not wrap. -/
theorem elapsed_succ {a b : Stamp} (h : elapsed a b + 1 < 2 ^ 32) : elapsed (a + 1) b = elapsed a b + 1 := by
  rw [elapsed] at h
  rw [elapsed, elapsed, add_sub_right_comm, BitVec.toNat_add]
  exact Nat.mod_eq_of_lt h

theorem nextEnv_of_cons {s : State} {e : EnvTick} {es : List EnvTick} (h : s.envIn = e :: es) : nextEnv s = e := by
  simp only [nextEnv, h]

/-- The line at the next tick is what the script says. -/
theorem waitedTick_rx {s : State} {e : EnvTick} {es : List EnvTick} (h : s.envIn = e :: es) :
    (waitedTick s).rx = e.rx := by
  rw [waitedTick, newTick_rx, nextEnv_of_cons (s := afterEdge (s.atPhase .edge)) h]

/-- With n ticks of silence still missing, and scripted, emission starts in n ticks. -/
theorem run_silent_wait {n : Nat} {s : State} (hpart : s.tickPhase = .transmit) (hwait : s.txph = .ctsWait)
    (hquiet : s.rx ≠ s.rxact) (hmissing : elapsed s.now s.qt + n = s.ctsTime.toNat) (hscript : n ≤ s.envIn.length)
    (hsilent : ∀ e ∈ s.envIn, e.rx ≠ s.rxact) :
    ∃ t : State, run (3 * n + 1) s = .next t ∧ t.tick = s.tick + n ∧ t.txph = .emit ∧ t.txk = 0 ∧ t.txoe = true ∧
      t.rxen = false ∧ t.txw = s.txw ∧ t.tickPhase = .drive := by
  induction n generalizing s with
  | zero =>
    have hstep := step_bus_free hpart hwait hquiet hmissing.ge
    exact ⟨_, run_one hstep, rfl, rfl, rfl, rfl, rfl, rfl, rfl⟩
  | succ n ih =>
    obtain ⟨e, es, henv⟩ := List.exists_cons_of_length_pos (Nat.zero_lt_of_lt hscript)
    have hcts : s.ctsTime.toNat < 2 ^ 16 := s.ctsTime.isLt
    have htick : run 3 s = .next (waitedTick s) := run_waiting_tick hpart hwait hquiet (by omega)
    have helapsed : elapsed (s.now + 1) s.qt = elapsed s.now s.qt + 1 := elapsed_succ (by omega)
    have hline : (waitedTick s).rx ≠ s.rxact := by
      rw [waitedTick_rx henv]
      exact hsilent e (by rw [henv]; exact List.mem_cons_self)
    have hstill : elapsed (s.now + 1) s.qt + n = s.ctsTime.toNat := by omega
    have hleft : n ≤ s.envIn.tail.length := by
      rw [List.length_tail]
      exact Nat.le_sub_one_of_lt hscript
    obtain ⟨t, hrun, hnow, hrest⟩ :=
      ih (s := waitedTick s) rfl hwait hline hstill hleft fun d hd => hsilent d (List.mem_of_mem_tail hd)
    refine ⟨t, ?_, ?_, hrest⟩
    · rw [Nat.mul_succ, Nat.add_right_comm, Nat.add_comm, run_add htick, hrun]
    · rw [hnow, waitedTick, newTick_tick, Nat.add_right_comm]
      rfl

/-- Settles O25: at the issue no silence has passed, so that all of CTS_TIME is still missing. -/
theorem silentBusStartsAfterCtsTime : Obligations.SilentBusStartsAfterCtsTime := by
  intro s hpart hwait hissue hquiet hscript hsilent
  have hmissing : elapsed s.now s.qt + s.ctsTime.toNat = s.ctsTime.toNat := by
    rw [hissue, elapsed, BitVec.sub_self, BitVec.toNat_zero, Nat.zero_add]
  exact run_silent_wait hpart hwait hquiet hmissing hscript hsilent

/-! ### The ticks of an emission (R124, R125, R126) -/

/-- The decoder's registers and the queue of `s` stand in `t` (R138). -/
def SameReceiveSide (s t : State) : Prop :=
  t.prevTs = s.prevTs ∧ t.acc = s.acc ∧ t.cnt = s.cnt ∧ t.buf = s.buf ∧ t.head = s.head ∧ t.tail = s.tail

/-- `t` is the state at the drive of tick k of the emission whose first drive is at `s`. -/
structure Emitting (s : State) (k : Nat) (t : State) : Prop where
  part : t.tickPhase = .drive
  emit : t.txph = .emit
  txk : t.txk.toNat = k
  tick : t.tick = s.tick + k
  txoe : t.txoe = true
  rxen : t.rxen = false
  txw : t.txw = s.txw
  txact : t.txact = s.txact
  bitTime : t.bitTime = s.bitTime
  receiveSide : SameReceiveSide s t

/-- The state after the drive of a tick. -/
def driven (t : State) : State := (driveChip (chip t.txw (chipIndex t)) t).atPhase .edge

/-- The state at the next tick, after the drive, the edge detector and a blocked HOST. -/
def emittedTick (t : State) : State := newTick (afterEdge (driven t))

@[simp] theorem emittedTick_tickPhase (t : State) : (emittedTick t).tickPhase = .transmit := by simp [emittedTick]

@[simp] theorem emittedTick_txph (t : State) : (emittedTick t).txph = t.txph := by simp [emittedTick, driven]

@[simp] theorem emittedTick_txk (t : State) : (emittedTick t).txk = t.txk := by simp [emittedTick, driven]

@[simp] theorem emittedTick_tick (t : State) : (emittedTick t).tick = t.tick + 1 := by simp [emittedTick, driven]

@[simp] theorem emittedTick_bitTime (t : State) : (emittedTick t).bitTime = t.bitTime := by simp [emittedTick, driven]

section
variable {s t : State} {k : Nat} (h : Emitting s k t)
include h

theorem Emitting.chipIndex_eq : chipIndex t = k / s.bitTime.toNat := by rw [chipIndex, h.txk, h.bitTime]

theorem Emitting.chipIndex_lt (hk : k < 50 * s.bitTime.toNat) : chipIndex t < 50 :=
  Machine.chipIndex_lt (by rwa [h.txk, h.bitTime])

theorem Emitting.step_drive (hk : k < 50 * s.bitTime.toNat) : step t = .next (driven t) :=
  step_drive_emit h.part h.emit (h.chipIndex_lt hk)

/-- R125: the pin after the drive. -/
theorem Emitting.pin_driven (hk : k < 50 * s.bitTime.toNat) :
    ∃ a : Bool, (frameString s.txw)[k / s.bitTime.toNat]? = some a ∧
      pin (driven t) = some (if a then s.txact else !s.txact) := by
  refine ⟨chip s.txw (k / s.bitTime.toNat), frameString_getElem? _ (h.chipIndex_eq ▸ h.chipIndex_lt hk), ?_⟩
  rw [pin, if_pos (by exact h.txoe), driven, atPhase_txout, driveChip_txout, h.chipIndex_eq, h.txw, h.txact, lineLevel]

/-- R18, R4: in EMIT the edge detector finds the decoder off and HOST is blocked. -/
theorem Emitting.run_tick (hk : k < 50 * s.bitTime.toNat) : run 3 t = .next (emittedTick t) := by
  have hblocked : (driven t).txph ≠ .idle := h.emit.trans_ne nofun
  rw [run_succ 2 (h.step_drive hk)]
  exact run_to_next_tick rfl (eventBits_ne_of_rxen h.rxen) hblocked

theorem Emitting.txk_advance (hk : k < 50 * s.bitTime.toNat) : (advanceTxk (emittedTick t)).txk.toNat = k + 1 := by
  have hbelow : (emittedTick t).txk.toNat < 50 * (emittedTick t).bitTime.toNat := by
    rwa [emittedTick_txk, emittedTick_bitTime, h.txk, h.bitTime]
  rw [advanceTxk_txk_toNat hbelow, emittedTick_txk, h.txk]

theorem Emitting.tick_succ : (emittedTick t).tick = s.tick + (k + 1) := by
  rw [emittedTick_tick, h.tick, Nat.add_assoc]

theorem Emitting.frameTicks_eq : frameTicks (emittedTick t) = 50 * s.bitTime.toNat := by
  rw [frameTicks, emittedTick_bitTime, h.bitTime]

theorem Emitting.step_emittedTick :
    step (emittedTick t) =
      if (advanceTxk (emittedTick t)).txk.toNat = frameTicks (emittedTick t) then
        .next ((endEmission (advanceTxk (emittedTick t))).atPhase .hostEarly)
      else .next ((advanceTxk (emittedTick t)).atPhase .drive) :=
  step_emit (emittedTick_tickPhase t) ((emittedTick_txph t).trans h.emit)

/-- The next tick of an emission, once TXK has advanced. -/
theorem Emitting.advance (hcount : (advanceTxk (emittedTick t)).txk.toNat = k + 1) :
    Emitting s (k + 1) ((advanceTxk (emittedTick t)).atPhase .drive) where
  part := rfl
  emit := by simpa using h.emit
  txk := hcount
  tick := h.tick_succ
  txoe := by simpa [emittedTick, driven] using h.txoe
  rxen := by simpa [emittedTick, driven] using h.rxen
  txw := by simpa [emittedTick, driven] using h.txw
  txact := by simpa [emittedTick, driven] using h.txact
  bitTime := by simpa using h.bitTime
  receiveSide := by simpa [SameReceiveSide, emittedTick, driven] using h.receiveSide

/-- R126: TXK advances at the next tick. -/
theorem Emitting.succ (hk : k + 1 < 50 * s.bitTime.toNat) :
    ∃ u, run 4 t = .next u ∧ Emitting s (k + 1) u := by
  have hcount := h.txk_advance (Nat.lt_of_succ_lt hk)
  have hmore : (advanceTxk (emittedTick t)).txk.toNat ≠ frameTicks (emittedTick t) := by
    rw [hcount, h.frameTicks_eq]
    exact hk.ne
  have hstep : step (emittedTick t) = .next ((advanceTxk (emittedTick t)).atPhase .drive) := by
    rw [h.step_emittedTick, if_neg hmore]
  exact ⟨_, run_snoc (h.run_tick (Nat.lt_of_succ_lt hk)) hstep, h.advance hcount⟩

/-- R127: the tick that reaches 50 × BIT_TIME ends the emission. -/
theorem Emitting.ends (hk : k + 1 = 50 * s.bitTime.toNat) :
    ∃ u, run 4 t = .next u ∧ u.tick = s.tick + 50 * s.bitTime.toNat ∧ u.txph = .idle ∧ pin u = none ∧
      u.rxen = true ∧ u.result = 0 ∧ u.tickPhase = .hostEarly ∧ SameReceiveSide s u := by
  have hlast : (advanceTxk (emittedTick t)).txk.toNat = frameTicks (emittedTick t) := by
    rw [h.txk_advance (Nat.lt_of_succ_le hk.le), h.frameTicks_eq, hk]
  have hstep : step (emittedTick t) = .next ((endEmission (advanceTxk (emittedTick t))).atPhase .hostEarly) := by
    rw [h.step_emittedTick, if_pos hlast]
  refine ⟨_, run_snoc (h.run_tick (Nat.lt_of_succ_le hk.le)) hstep, ?_⟩
  rw [← hk]
  refine ⟨h.tick_succ, rfl, rfl, rfl, rfl, rfl, ?_⟩
  simpa [SameReceiveSide, emittedTick, driven] using h.receiveSide

end

/-- In a good state the first drive of an emission is its tick 0. -/
theorem emitting_zero {s : State} (hinv : Inv s) (hpart : s.tickPhase = .drive) (hemit : s.txph = .emit)
    (hfirst : s.txk = 0) : Emitting s 0 s := by
  obtain ⟨-, -, ⟨htxoe, hrxen, -, -⟩, -⟩ := hinv
  have hoff : s.rxen = false := eq_false_of_ne_true fun hon => (hrxen.1 hon).2 hemit
  exact ⟨hpart, hemit, by rw [hfirst]; rfl, rfl, htxoe.2 hemit, hoff, rfl, rfl, rfl, rfl, rfl, rfl, rfl, rfl, rfl⟩

/-- Four steps of the model make a tick of an emission. -/
theorem run_emission {s : State} (h : Emitting s 0 s) {k : Nat} (hk : k < 50 * s.bitTime.toNat) :
    ∃ t, run (4 * k) s = .next t ∧ Emitting s k t := by
  induction k with
  | zero => exact ⟨s, rfl, h⟩
  | succ k ih =>
    obtain ⟨t, hrun, ht⟩ := ih (Nat.lt_of_succ_lt hk)
    obtain ⟨u, htick, hu⟩ := ht.succ hk
    exact ⟨u, (run_add hrun 4).trans htick, hu⟩

/-- Settles O24, by induction over the ticks of the emission; BIT_TIME is at least 1, so there is a last one. -/
theorem emissionRunsTheWholeFrame : Obligations.EmissionRunsTheWholeFrame := by
  intro s hinv hpart hemit hfirst
  have hzero : Emitting s 0 s := emitting_zero hinv hpart hemit hfirst
  obtain ⟨-, ⟨hbit, -⟩, -⟩ := hinv
  refine ⟨fun k hk => ?drives, ?ends⟩
  case drives =>
    obtain ⟨t, hrun, ht⟩ := run_emission hzero hk
    obtain ⟨a, hchip, hpin⟩ := ht.pin_driven hk
    exact ⟨driven t, a, run_snoc hrun (ht.step_drive hk), ht.tick, ht.emit, hchip, hpin, ht.rxen,
      ht.receiveSide⟩
  case ends =>
    obtain ⟨k, hk⟩ : ∃ k, k + 1 = 50 * s.bitTime.toNat := ⟨50 * s.bitTime.toNat - 1, by omega⟩
    obtain ⟨t, hrun, ht⟩ := run_emission hzero (Nat.lt_of_succ_le hk.le)
    obtain ⟨u, htick, hu⟩ := ht.ends hk
    refine ⟨u, ?_, hu⟩
    rw [← hk, Nat.mul_succ, run_add hrun, htick]

/-! ### The pin (R23, R24) -/

theorem pin_eq_none_iff (s : State) : pin s = none ↔ s.txoe = false := by
  unfold pin
  cases s.txoe <;> simp

/-- Settles O28, from what a good state says of TXOE, TXOUT and TXK. -/
theorem pinIsReleasedOutsideEmit : Obligations.PinIsReleasedOutsideEmit := by
  rintro s ⟨-, -, ⟨htxoe, -, -, htxk⟩, hpin, -⟩
  refine ⟨?released, fun hemit hdone => ⟨chip s.txw (chipIndex s), ?chip, ?level⟩⟩
  case released => rw [pin_eq_none_iff, ← Bool.not_eq_true, htxoe]
  case chip => exact frameString_getElem? s.txw (chipIndex_lt (htxk hemit))
  case level => rw [pin, if_pos (htxoe.2 hemit), hpin hemit hdone, frameLevel, lineLevel]

/-! ### What the transmitter's parts of a tick write (R138) -/

/-- Only the transmitter's registers, the result port and the part of the tick differ. -/
def TransmitterOnly (s t : State) : Prop :=
  ∃ (qt : Stamp) (rxen : Bool) (txph : TxPhase) (txk : BitVec 22) (txoe txout : Bool) (result : Word) (p : TickPhase),
    t = { s with qt := qt, rxen := rxen, txph := txph, txk := txk, txoe := txoe, txout := txout, result := result,
                 tickPhase := p }

theorem transmitTurn_transmitterOnly {s t : State} (h : transmitTurn s = .next t) : TransmitterOnly s t := by
  rcases transmitTurn_cases s with ⟨-, hturn⟩ | ⟨-, -, hturn⟩ | ⟨-, -, hturn⟩ | ⟨-, -, hturn⟩ | ⟨-, -, hturn⟩
  all_goals
    cases hturn.symm.trans h
    exact ⟨_, _, _, _, _, _, _, _, rfl⟩

theorem driveTurn_transmitterOnly {s t : State} (h : driveTurn s = .next t) : TransmitterOnly s t := by
  rcases driveTurn_cases s with ⟨-, hturn⟩ | ⟨-, level, hturn⟩
  all_goals
    cases hturn.symm.trans h
    exact ⟨_, _, _, _, _, _, _, _, rfl⟩

theorem step_transmitterOnly {s t : State} (hpart : s.tickPhase = .transmit ∨ s.tickPhase = .drive)
    (h : step s = .next t) : TransmitterOnly s t := by
  rcases hpart with hpart | hpart
  · exact transmitTurn_transmitterOnly ((step_transmit hpart).symm.trans h)
  · exact driveTurn_transmitterOnly ((step_drive hpart).symm.trans h)

/-- Settles O27: none of the fields named is among those the transmitter's parts write. -/
theorem transmitterLeavesTheReceiveSide : Obligations.TransmitterLeavesTheReceiveSide := by
  intro s t hpart h
  obtain ⟨_, _, _, _, _, _, _, _, rfl⟩ := step_transmitterOnly hpart h
  simp only [and_self]

/-! ### The chips and the symbols of a frame (R66, R68) -/

/-- The opening chip of a cell, START and STOP are active. -/
theorem chip_of_mod_one (w : Word) {c : Nat} (hc : c % 3 = 1) : chip w c = true := by
  rw [chip]
  split
  · rfl
  · rw [if_pos (by omega)]

/-- The closing chip of a cell is inactive. -/
theorem chip_of_mod_zero (w : Word) {c : Nat} (hpos : 0 < c) (hc : c % 3 = 0) : chip w c = false := by
  rw [chip, if_neg (by omega), if_neg (by omega), if_neg (by omega)]

theorem chip_zero (w : Word) : chip w 0 = true := by
  rw [chip, if_pos (.inl rfl)]

/-- Settles O17, by the place of the chip in its cell: a middle chip follows an active one, a closing one is inactive,
and an opening one follows an inactive one or START. -/
theorem risingChipsDoNotDependOnTheWord : Obligations.RisingChipsDoNotDependOnTheWord := by
  intro w c hpos _
  have hplace : c % 3 = 0 ∨ c % 3 = 1 ∨ c % 3 = 2 := by omega
  rcases hplace with hclosing | hopening | hmiddle
  · rw [chip_of_mod_zero w hpos hclosing]
    exact iff_of_false (fun hrise => Bool.false_ne_true hrise.1) (by omega)
  · rw [chip_of_mod_one w hopening]
    by_cases hstart : c = 1
    · rw [hstart, chip_zero]
      decide
    · rw [chip_of_mod_zero w (c := c - 1) (by omega) (by omega)]
      exact iff_of_true ⟨rfl, rfl⟩ ⟨by omega, hopening⟩
  · rw [chip_of_mod_one w (c := c - 1) (by omega)]
    exact iff_of_false (fun hrise => nomatch hrise.2) (by omega)

/-- The step at the issue of TX_SEND, after INIT (R120). -/
theorem exec_txSend_of {s : State} (w : Word) (h : s.initd = true) : exec (.txSend w) s = .next (beginSend w s) :=
  whenInitialised_of _ h

/-- Settles O18, from the operation map and the step at the issue. -/
theorem txSendStartsTheWait : Obligations.TxSendStartsTheWait := by
  intro w s
  refine ⟨decodeCommand_append 0b01011#5 w, fun hinit => ?_⟩
  rw [exec_txSend_of w hinit, beginSend]

/-- Settles O20: the meaning of a frame is the start of its emission. -/
theorem frameStartsEmission : Obligations.FrameStartsEmission := by
  intro w s
  rw [exec, execTxFrame, beginEmission]

/-- R66, R125: the level that the cell of a bit drives, by the place of the chip in it. -/
theorem driveCell_eq (b : Bool) (s : State) :
    driveCell [true, b, false] s =
      { s with txout := if symbolPosition s = 0 ∨ (symbolPosition s = 1 ∧ b = true) then s.txact else !s.txact } := by
  have hplace : symbolPosition s < 3 := Nat.mod_lt _ (by decide)
  rw [driveCell, driveChip, lineLevel]
  interval_cases symbolPosition s <;> simp

/-- Settles O21: START and STOP are one active chip, a cell's chip is the one at the place TXK stands in. -/
theorem symbolsDriveThePin : Obligations.SymbolsDriveThePin := by
  intro s
  have hplace : symbolPosition s = (s.txk.toNat / s.bitTime.toNat - 1) % 3 := rfl
  dsimp only
  rw [← hplace]
  refine ⟨rfl, rfl, ?bit0, ?bit1⟩
  case bit0 =>
    refine (exec_cell false s).trans ?_
    rw [driveCell_eq]
    simp
  case bit1 =>
    have htwo : symbolPosition s < 2 ↔ symbolPosition s = 0 ∨ symbolPosition s = 1 := by omega
    refine (exec_cell true s).trans ?_
    rw [driveCell_eq]
    simp [htwo]

end Sys2Proof.Machine
end

section
/-! PROOFS. Which registers an instruction and a step write (10_state.md, 43_transmitter.md section 4): every register
has one writer. -/

namespace Sys2Proof.Machine

/-! ### The shared operations, by what they leave unchanged -/

/-- A read changes HEAD and the result port only. -/
theorem readWord_eq (s : State) :
    readWord s = { s with head := (readWord s).head, result := (readWord s).result } := by
  rcases readWord_cases s with ⟨-, h⟩ | ⟨-, h⟩ <;> rw [h]

/-- After a host operation only the part of the tick may differ. -/
theorem settle_eq (s : State) : settle s = { s with tickPhase := (settle s).tickPhase } := by
  rcases settle_cases s with ⟨-, h⟩ | ⟨-, h⟩ <;> rw [h]
  rfl

/-! ### The writers among the instructions (R10 to R15, R25 to R30) -/

/-- R10, R11, R12: PREV_TS, ACC and CNT are written by RX_EDGE only. -/
theorem Effect.decoder_registers {i : Instr} {s t : State} (h : Effect i s t) (hi : i ≠ .rxEdge) :
    t.prevTs = s.prevTs ∧ t.acc = s.acc ∧ t.cnt = s.cnt := by
  cases h with
  | edge => exact absurd rfl hi
  | push w => rw [pushWord_eq]; exact ⟨rfl, rfl, rfl⟩
  | read => rw [readWord_eq]; exact ⟨rfl, rfl, rfl⟩
  | dispatch _ w => rw [dispatchWord_eq]; exact ⟨rfl, rfl, rfl⟩
  | _ => exact ⟨rfl, rfl, rfl⟩

/-- R14: HEAD is written by Q_READ only. -/
theorem Effect.head {i : Instr} {s t : State} (h : Effect i s t) (hi : i ≠ .qRead) : t.head = s.head := by
  cases h with
  | read => exact absurd rfl hi
  | push w => exact pushWord_head w s
  | edge => exact rxEdgeStep_head s
  | dispatch _ w => rw [dispatchWord_eq]
  | _ => rfl

/-- R15, R47: TAIL and the slots are written by RX_EDGE and Q_PUSH only. -/
theorem Effect.tail_buf {i : Instr} {s t : State} (h : Effect i s t) (hedge : i ≠ .rxEdge)
    (hpush : ∀ w, i ≠ .qPush w) : t.tail = s.tail ∧ t.buf = s.buf := by
  cases h with
  | edge => exact absurd rfl hedge
  | push w => exact absurd rfl (hpush w)
  | read => rw [readWord_eq]; exact ⟨rfl, rfl⟩
  | dispatch _ w => rw [dispatchWord_eq]; exact ⟨rfl, rfl⟩
  | _ => exact ⟨rfl, rfl⟩

/-- R25, R26: the polarities and INITD are written by INIT only. -/
theorem Effect.polarities {i : Instr} {s t : State} (h : Effect i s t) (hi : ∀ a b, i ≠ .init a b) :
    t.rxact = s.rxact ∧ t.txact = s.txact ∧ t.initd = s.initd := by
  cases h with
  | init a b => exact absurd rfl (hi a b)
  | push w => rw [pushWord_eq]; exact ⟨rfl, rfl, rfl⟩
  | read => rw [readWord_eq]; exact ⟨rfl, rfl, rfl⟩
  | edge => rw [rxEdgeStep_eq]; exact ⟨rfl, rfl, rfl⟩
  | dispatch _ w => rw [dispatchWord_eq]; exact ⟨rfl, rfl, rfl⟩
  | _ => exact ⟨rfl, rfl, rfl⟩

/-- R141: INIT goes on before INIT only, so that after it no instruction writes a polarity or INITD. -/
theorem Effect.polarities_of_initd {i : Instr} {s t : State} (h : Effect i s t) (hinit : s.initd = true) :
    t.rxact = s.rxact ∧ t.txact = s.txact ∧ t.initd = s.initd := by
  by_cases hi : ∃ a b, i = .init a b
  · obtain ⟨a, b, rfl⟩ := hi
    cases h with
    | init _ _ hbefore => exact absurd (hinit.symm.trans hbefore) nofun
    | dispatch _ w => rw [dispatchWord_eq]; exact ⟨rfl, rfl, rfl⟩
    | _ => exact ⟨rfl, rfl, rfl⟩
  · exact h.polarities fun a b hab => hi ⟨a, b, hab⟩

/-- The four timing registers of `s` stand in `t`, but for those that are said to be written. -/
theorem Effect.timing_registers {i : Instr} {s t : State} (h : Effect i s t) :
    ((∀ v, i ≠ .wrBitTime v) → t.bitTime = s.bitTime) ∧ ((∀ v, i ≠ .wrZeroTime v) → t.zeroTime = s.zeroTime) ∧
    ((∀ v, i ≠ .wrIdleTime v) → t.idleTime = s.idleTime) ∧ ((∀ v, i ≠ .wrCtsTime v) → t.ctsTime = s.ctsTime) := by
  cases h with
  | bitTime v => exact ⟨fun hi => absurd rfl (hi v), fun _ => rfl, fun _ => rfl, fun _ => rfl⟩
  | zeroTime v => exact ⟨fun _ => rfl, fun hi => absurd rfl (hi v), fun _ => rfl, fun _ => rfl⟩
  | idleTime v => exact ⟨fun _ => rfl, fun _ => rfl, fun hi => absurd rfl (hi v), fun _ => rfl⟩
  | ctsTime v => exact ⟨fun _ => rfl, fun _ => rfl, fun _ => rfl, fun hi => absurd rfl (hi v)⟩
  | push w => rw [pushWord_eq]; exact ⟨fun _ => rfl, fun _ => rfl, fun _ => rfl, fun _ => rfl⟩
  | read => rw [readWord_eq]; exact ⟨fun _ => rfl, fun _ => rfl, fun _ => rfl, fun _ => rfl⟩
  | edge => rw [rxEdgeStep_eq]; exact ⟨fun _ => rfl, fun _ => rfl, fun _ => rfl, fun _ => rfl⟩
  | dispatch _ w => rw [dispatchWord_eq]; exact ⟨fun _ => rfl, fun _ => rfl, fun _ => rfl, fun _ => rfl⟩
  | _ => exact ⟨fun _ => rfl, fun _ => rfl, fun _ => rfl, fun _ => rfl⟩

/-- R8, R147: the two writes that could break the constraint go on only where it holds afterwards. -/
theorem Effect.configInv {i : Instr} {s t : State} (h : Effect i s t) (hs : ConfigInv s) : ConfigInv t := by
  cases h with
  | bitTime v _ hpos hbelow => exact ⟨hpos, hbelow⟩
  | zeroTime v _ hbelow => exact ⟨hs.1, hbelow⟩
  | push w => rw [pushWord_eq]; exact hs
  | read => rw [readWord_eq]; exact hs
  | edge => rw [rxEdgeStep_eq]; exact hs
  | dispatch _ w => rw [dispatchWord_eq]; exact hs
  | _ => exact hs

/-- Settles O37, from the two writes that touch BIT_TIME or ZERO_TIME. -/
theorem configurationStaysWellFormed : Obligations.ConfigurationStaysWellFormed :=
  fun _ _ _ hs h => (exec_effect h).configInv hs

/-- Settles O47, from the writers of HEAD, of TAIL and of the slots. -/
theorem queueIndicesHaveOneWriter : Obligations.QueueIndicesHaveOneWriter := by
  intro i s t h
  refine ⟨fun hhead => ?read, fun hqueue => ?edgeOrPush⟩
  case read => exact by_contra fun hi => hhead ((exec_effect h).head hi)
  case edgeOrPush =>
    by_contra hi
    rw [not_or, not_exists] at hi
    obtain ⟨htail, hbuf⟩ := (exec_effect h).tail_buf hi.1 hi.2
    exact hqueue.elim (absurd htail) (absurd hbuf)

/-! ### The instructions of the block and those of HOST -/

/-- The instructions that DEC and the transmitter execute; all others are HOST's. -/
def ofBlock : Instr → Bool
  | .rxEdge | .txsymStart | .txsymBit0 | .txsymBit1 | .txsymStop | .txFrame _ => true
  | _ => false

theorem decodeCommand_ofBlock {c : Command} {i : Instr} (h : decodeCommand c = .ok i) : ofBlock i = false := by
  unfold decodeCommand at h
  split at h
  all_goals cases h
  all_goals rfl

/-- HOST and its software execute no instruction of the block. -/
theorem HostCoded.ofBlock {c : Coded} {i : Instr} (hc : HostCoded c) (h : decode c = .ok i) : ofBlock i = false := by
  cases hc with
  | command c => exact decodeCommand_ofBlock h
  | word w =>
    have hw : decodeWord w = .ok i := h
    rcases decodeWord_ok w with ⟨-, hd⟩ | ⟨-, hd⟩ | ⟨-, hd⟩ | hd
    all_goals cases hd.symm.trans hw; rfl
  | keyWord w =>
    have hw : decodeKeyWord w = .ok i := h
    rcases decodeKeyWord_ok w with ⟨-, hd⟩ | ⟨-, hd⟩ | hd
    all_goals cases hd.symm.trans hw; rfl

/-- What an instruction of HOST may do to the phase of the transmitter: TX_SEND begins the wait (R120). -/
theorem Effect.txph_of_host {i : Instr} {s t : State} (h : Effect i s t) (hi : ofBlock i = false) :
    t.txph = s.txph ∨ (s.initd = true ∧ t.txph = .ctsWait ∧ t.qt = s.now) := by
  cases h with
  | send _ w hinit => exact .inr ⟨hinit, rfl, rfl⟩
  | frame w => exact absurd hi nofun
  | push w => rw [pushWord_eq]; exact .inl rfl
  | read => exact .inl (readWord_txph s)
  | edge => exact absurd hi nofun
  | dispatch _ w => rw [dispatchWord_eq]; exact .inl rfl
  | _ => exact .inl rfl

/-! ### What HOST's turn does -/

/-- Only the host software, time and the part of the tick differ. -/
def SoftwareOrTime (s t : State) : Prop :=
  ∃ (m : HostMode) (h : List HostItem) (c : List Nat) (n : Nat) (callback logger : Bool) (now : Stamp) (rx : Bool)
    (ms tick : Nat) (env : List EnvTick) (p : TickPhase),
    t = { s with hostMode := m, hostIn := h, choiceIn := c, choices := n, callback := callback, logger := logger,
                 now := now, rx := rx, ms := ms, tick := tick, envIn := env, tickPhase := p }

theorem SoftwareOnly.softwareOrTime {s t : State} (h : SoftwareOnly s t) : SoftwareOrTime s t := by
  obtain ⟨_, _, _, _, _, _, rfl⟩ := h
  exact ⟨_, _, _, _, _, _, _, _, _, _, _, _, rfl⟩

theorem SoftwareOnly.newTick {s u : State} (h : SoftwareOnly s u) : SoftwareOrTime s (newTick u) := by
  obtain ⟨_, _, _, _, _, _, rfl⟩ := h
  exact ⟨_, _, _, _, _, _, _, _, _, _, _, _, rfl⟩

theorem SoftwareOnly.atPhase {s u : State} (h : SoftwareOnly s u) (p : TickPhase) :
    SoftwareOrTime s (u.atPhase p) := by
  obtain ⟨_, _, _, _, _, _, rfl⟩ := h
  exact ⟨_, _, _, _, _, _, _, _, _, _, _, _, rfl⟩

theorem SoftwareOnly.passTurn {s u : State} (h : SoftwareOnly s u) : SoftwareOrTime s (passTurn u) := by
  rcases passTurn_cases u with ⟨-, hpass⟩ | ⟨-, hpass⟩
  · rw [hpass]; exact h.atPhase .edge
  · rw [hpass]; exact h.newTick

theorem SoftwareOnly.settle {s u : State} (h : SoftwareOnly s u) : SoftwareOrTime s (settle u) := by
  rcases settle_cases u with ⟨-, hsettle⟩ | ⟨-, hsettle⟩
  · rw [hsettle]; exact h.atPhase .transmit
  · rw [hsettle]; exact h.softwareOrTime

/-- HOST's turn leaves the block alone, or it executes one instruction of HOST's. -/
theorem hostTurn_softwareOrTime_or_effect {s t : State} (h : hostTurn s = .next t) :
    SoftwareOrTime s t ∨ ∃ i u v, SoftwareOnly s u ∧ ofBlock i = false ∧ Effect i u v ∧ SoftwareOrTime v t := by
  rcases hostTurn_cases h with ⟨u, hu, rfl⟩ | ⟨u, hu, -, rfl⟩ | ⟨ht, -⟩ | ⟨-, u, v, w, c, i, hu, hc, hd, he, hw, rfl⟩
  · exact .inl hu.passTurn
  · exact .inl hu.newTick
  · exact .inl ht.softwareOrTime
  · exact .inr ⟨i, u, v, hu, hc.ofBlock hd, exec_effect he, hw.settle⟩

/-- A step is the transmitter's, the edge detector's or HOST's. -/
theorem step_cases {s t : State} (h : step s = .next t) :
    ((s.tickPhase = .transmit ∨ s.tickPhase = .drive) ∧ TransmitterOnly s t) ∨
    (s.tickPhase = .edge ∧ (t = afterEdge s ∨ t = afterEdge (rxEdgeStep s))) ∨
    ((s.tickPhase = .hostEarly ∨ s.tickPhase = .hostLate) ∧ hostTurn s = .next t) := by
  cases hpart : s.tickPhase with
  | transmit => exact .inl ⟨.inl rfl, step_transmitterOnly (.inl hpart) h⟩
  | drive => exact .inl ⟨.inr rfl, step_transmitterOnly (.inr hpart) h⟩
  | edge =>
    rw [step_edge hpart] at h
    rcases edgeTurn_cases s with ⟨-, hturn⟩ | ⟨-, hturn⟩
    · exact .inr (.inl ⟨rfl, .inr (Host.Outcome.next.inj (h.symm.trans hturn))⟩)
    · exact .inr (.inl ⟨rfl, .inl (Host.Outcome.next.inj (h.symm.trans hturn))⟩)
  | hostEarly => exact .inr (.inr ⟨.inl rfl, (step_hostEarly hpart).symm.trans h⟩)
  | hostLate => exact .inr (.inr ⟨.inr rfl, (step_hostLate hpart).symm.trans h⟩)

/-- Settles O46: among the instructions RX_EDGE is the only writer, and HOST and the transmitter do not execute it. -/
theorem decoderRegistersHaveOneWriter : Obligations.DecoderRegistersHaveOneWriter := by
  refine ⟨fun i s t hi h => (exec_effect h).decoder_registers hi, fun s t hpart h => ?_⟩
  rcases step_cases h with ⟨-, _, _, _, _, _, _, _, _, rfl⟩ | ⟨hedge, -⟩ | ⟨-, hturn⟩
  · exact ⟨rfl, rfl, rfl⟩
  · exact absurd hedge hpart
  · rcases hostTurn_softwareOrTime_or_effect hturn with
      ⟨_, _, _, _, _, _, _, _, _, _, _, _, rfl⟩ | ⟨i, u, v, hu, hi, he, _, _, _, _, _, _, _, _, _, _, _, _, rfl⟩
    · exact ⟨rfl, rfl, rfl⟩
    · obtain ⟨_, _, _, _, _, _, rfl⟩ := hu
      have hedge : i ≠ .rxEdge := by
        rintro rfl
        exact absurd hi nofun
      exact he.decoder_registers hedge

/-- The polarities and INITD after INIT, over a step. -/
theorem step_polarities_of_initd {s t : State} (h : step s = .next t) (hinit : s.initd = true) :
    t.rxact = s.rxact ∧ t.txact = s.txact ∧ t.initd = s.initd := by
  rcases step_cases h with ⟨-, _, _, _, _, _, _, _, _, rfl⟩ | ⟨-, rfl | rfl⟩ | ⟨-, hturn⟩
  · exact ⟨rfl, rfl, rfl⟩
  · exact ⟨rfl, rfl, rfl⟩
  · rw [rxEdgeStep_eq]; exact ⟨rfl, rfl, rfl⟩
  · rcases hostTurn_softwareOrTime_or_effect hturn with
      ⟨_, _, _, _, _, _, _, _, _, _, _, _, rfl⟩ | ⟨i, u, v, hu, -, he, _, _, _, _, _, _, _, _, _, _, _, _, rfl⟩
    · exact ⟨rfl, rfl, rfl⟩
    · obtain ⟨_, _, _, _, _, _, rfl⟩ := hu
      exact he.polarities_of_initd hinit

/-- Settles O48, from the writers among the instructions and, for a step, from INIT being refused after INIT. -/
theorem configurationHasOneWriter : Obligations.ConfigurationHasOneWriter := by
  refine ⟨fun i s t h => ?instruction, fun s t h hinit => ?step⟩
  case instruction =>
    obtain ⟨hbit, hzero, hidle, hcts⟩ := (exec_effect h).timing_registers
    refine ⟨fun hpolarity => ?init, fun hne => ?bitTime, fun hne => ?zeroTime, fun hne => ?idleTime,
      fun hne => ?ctsTime⟩
    case init =>
      by_contra hi
      simp only [not_exists] at hi
      obtain ⟨hrx, htx, hinitd⟩ := (exec_effect h).polarities hi
      exact hpolarity.elim (absurd hrx) (Or.rec (absurd htx) (absurd hinitd))
    case bitTime => exact by_contra fun hi => hne (hbit (not_exists.1 hi))
    case zeroTime => exact by_contra fun hi => hne (hzero (not_exists.1 hi))
    case idleTime => exact by_contra fun hi => hne (hidle (not_exists.1 hi))
    case ctsTime => exact by_contra fun hi => hne (hcts (not_exists.1 hi))
  case step =>
    obtain ⟨hrx, htx, hinitd⟩ := step_polarities_of_initd h hinit
    exact ⟨hinitd.trans hinit, hrx, htx⟩

/-! ### The phase of the transmitter (R135) -/

/-- HOST's turn changes TXPH at the issue of a TX_SEND only. -/
theorem hostTurn_txph {s t : State} (h : hostTurn s = .next t) (hne : t.txph ≠ s.txph) :
    s.txph = .idle ∧ t.txph = .ctsWait ∧ t.qt = s.now ∧ t.tickPhase = .transmit := by
  rcases hostTurn_cases h with ⟨u, hu, rfl⟩ | ⟨u, hu, -, rfl⟩ | ⟨ht, -⟩ |
    ⟨hidle, u, v, w, c, i, ⟨_, _, _, _, _, _, rfl⟩, hc, hd, he, ⟨_, _, _, _, _, _, rfl⟩, rfl⟩
  · obtain ⟨_, _, _, _, _, _, _, _, _, _, _, _, hpass⟩ := hu.passTurn
    exact absurd (by rw [hpass]) hne
  · exact absurd hu.txph hne
  · exact absurd ht.txph hne
  · rw [settle_eq] at hne
    rcases (exec_effect he).txph_of_host (hc.ofBlock hd) with hsame | ⟨-, hwait, hqt⟩
    · exact absurd hsame hne
    · rw [settle, if_pos hwait]
      exact ⟨hidle, hwait, hqt, rfl⟩

/-- The transmitter's transition changes TXPH at the start and at the end of an emission only. -/
theorem transmitTurn_txph {s t : State} (h : transmitTurn s = .next t) (hne : t.txph ≠ s.txph) :
    (s.txph = .ctsWait ∧ t.txph = .emit ∧ s.ctsTime.toNat ≤ elapsed s.now t.qt) ∨
    (s.txph = .emit ∧ t.txph = .idle ∧ t.txk.toNat = 50 * s.bitTime.toNat) := by
  rcases transmitTurn_cases s with ⟨-, hturn⟩ | ⟨hwait, hfree, hturn⟩ | ⟨-, -, hturn⟩ | ⟨hemit, hlast, hturn⟩ |
    ⟨-, -, hturn⟩
  all_goals cases hturn.symm.trans h
  · exact absurd rfl hne
  · exact .inl ⟨hwait, rfl, of_decide_eq_true hfree⟩
  · exact absurd rfl hne
  · exact .inr ⟨hemit, rfl, hlast⟩
  · exact absurd rfl hne

/-- Settles O26, by the agent whose part of the tick it is. -/
theorem phaseChangesAreThreeKinds : Obligations.PhaseChangesAreThreeKinds := by
  intro s t h hne
  cases hpart : s.tickPhase with
  | transmit =>
    rw [step_transmit hpart] at h
    rcases transmitTurn_txph h hne with ⟨hwait, hemit, hquiet⟩ | ⟨hemit, hidle, hlast⟩
    · exact .inr (.inl ⟨hwait, hemit, rfl, hquiet⟩)
    · exact .inr (.inr ⟨hemit, hidle, rfl, hlast⟩)
  | drive =>
    rcases driveTurn_cases s with ⟨-, hturn⟩ | ⟨-, level, hturn⟩
    all_goals
      cases hturn.symm.trans ((step_drive hpart).symm.trans h)
      exact absurd rfl hne
  | edge =>
    rcases edgeTurn_cases s with ⟨-, hturn⟩ | ⟨-, hturn⟩
    all_goals have ht := Host.Outcome.next.inj (hturn.symm.trans ((step_edge hpart).symm.trans h))
    · exact absurd (by rw [← ht, rxEdgeStep_eq]; rfl) hne
    · exact absurd (by rw [← ht]; rfl) hne
  | hostEarly => exact .inl (hostTurn_txph ((step_hostEarly hpart).symm.trans h) hne)
  | hostLate => exact .inl (hostTurn_txph ((step_hostLate hpart).symm.trans h) hne)

end Sys2Proof.Machine
end

section
/-! PROOFS. Good states (00_scope.md section 5, 10_state.md): reset is one, and the agent of each part of a tick leads
from a good state to a good state. -/

namespace Sys2Proof.Machine

/-- Settles O52: at reset CNT is 0, the transmitter is IDLE, the queue is empty, HOST is free, and the timing
registers hold their configured values. -/
theorem resetIsGood : Obligations.ResetIsGood := by
  have hdecoder : DecoderInv State.reset := by decide
  have hconfig : ConfigInv State.reset := by decide
  have htransmit : TransmitInv State.reset := ⟨by decide, by decide, fun _ => rfl, nofun⟩
  have hqueue : QueueInv State.reset := by
    refine ⟨reset_buf_wf, fun k hk => ?_⟩
    rw [count_reset] at hk
    exact absurd hk k.not_lt_zero
  exact ⟨hdecoder, hconfig, htransmit, nofun, ⟨nofun, nofun⟩, hqueue, nofun⟩

/-! ### The decoder's registers (R36) -/

theorem decoderInv_of_clear {s : State} (hacc : s.acc = 0) (hcnt : s.cnt = 0) : DecoderInv s := by
  rw [DecoderInv, hacc, hcnt]
  decide

/-- RX_EDGE clears ACC and CNT or shifts one bit into ACC and counts it. -/
theorem rxEdgeStep_decoderInv {s : State} (h : DecoderInv s) : DecoderInv (rxEdgeStep s) := by
  obtain ⟨hcnt, hacc⟩ := h
  rcases rxEdgeStep_cases s with ⟨-, hstep⟩ | ⟨-, hmore, hstep⟩ | ⟨-, -, hstep⟩
  case inl => rw [hstep]; exact decoderInv_of_clear rfl rfl
  case inr.inr => rw [hstep]; exact decoderInv_of_clear rfl rfl
  case inr.inl =>
    have hcount : (s.cnt + 1).toNat = s.cnt.toNat + 1 := by
      rw [cnt_add_one_eq_ofNat, BitVec.toNat_ofNat]
      exact Nat.mod_eq_of_lt (by omega)
    have hbit : (edgeBit s).toNat < 2 := Bool.toNat_lt _
    rw [hstep]
    refine ⟨?_, ?_⟩
    · dsimp only
      omega
    · dsimp only
      rw [shiftIn_toNat, hcount, Nat.pow_succ]
      exact lt_of_le_of_lt (Nat.mod_le _ _) (by omega)

/-! ### The queue (R13) -/

theorem queueInv_iff (s : State) :
    QueueInv s ↔ s.buf.wf = true ∧ ∀ k, k < count s → (queueWord s k).isSome = true := Iff.rfl

/-- A good queue stays good where storage and indices stay. -/
theorem QueueInv.congr {s t : State} (h : QueueInv s) (hbuf : t.buf = s.buf) (hhead : t.head = s.head)
    (htail : t.tail = s.tail) : QueueInv t := by
  rw [QueueInv, hbuf, hhead, count_congr hhead htail]
  exact h

/-- A push writes the slot it makes part of the queue. -/
theorem QueueInv.pushWord {s : State} (h : QueueInv s) (w : Word) : QueueInv (pushWord w s) := by
  obtain ⟨hwf, hwritten⟩ := (queueInv_iff s).1 h
  refine (queueInv_iff _).2 ⟨pushWord_buf_wf w s hwf, fun k hk => ?_⟩
  by_cases hheld : k < count s
  · rw [queueWord_pushWord_of_lt w hheld]
    exact hwritten k hheld
  · have hlt : count s < 64 := count_lt s
    rw [count_pushWord] at hk
    obtain ⟨hroom, rfl⟩ : count s ≠ 63 ∧ k = count s := by
      split at hk <;> omega
    rw [queueWord_pushWord_count w ((full_false_iff_count s).2 hroom)]
    rfl

/-- A read takes one written slot away. -/
theorem QueueInv.readWord {s : State} (h : QueueInv s) : QueueInv (readWord s) := by
  obtain ⟨hwf, hwritten⟩ := (queueInv_iff s).1 h
  refine (queueInv_iff _).2 ⟨?_, fun k hk => ?_⟩
  · rwa [readWord_eq]
  · rw [count_readWord] at hk
    have hheld : count s ≠ 0 := by omega
    rw [queueWord_readWord ((empty_false_iff_count s).2 hheld)]
    exact hwritten (k + 1) (by omega)

/-- RX_EDGE leaves the queue alone or pushes one word. -/
theorem rxEdgeStep_queueInv {s : State} (h : QueueInv s) : QueueInv (rxEdgeStep s) := by
  rcases rxEdgeStep_queue s with ⟨hbuf, htail⟩ | ⟨w, hbuf, htail⟩
  · exact h.congr hbuf (rxEdgeStep_head s) htail
  · exact (h.pushWord w).congr hbuf ((rxEdgeStep_head s).trans (pushWord_head w s).symm) htail

/-! ### The registers of the block -/

/-- The part of `Inv` that speaks of neither the part of the tick nor the host software. -/
structure RegistersGood (s : State) : Prop where
  decoder : DecoderInv s
  config : ConfigInv s
  transmit : TransmitInv s
  queue : QueueInv s

theorem inv_iff (s : State) : Inv s ↔ RegistersGood s ∧ PinInv s ∧ TurnInv s ∧ HostInv s :=
  ⟨fun ⟨hd, hc, ht, hp, hturn, hq, hh⟩ => ⟨⟨hd, hc, ht, hq⟩, hp, hturn, hh⟩,
    fun ⟨⟨hd, hc, ht, hq⟩, hp, hturn, hh⟩ => ⟨hd, hc, ht, hp, hturn, hq, hh⟩⟩

theorem SoftwareOrTime.registersGood {s t : State} (h : SoftwareOrTime s t) (hs : RegistersGood s) :
    RegistersGood t := by
  obtain ⟨_, _, _, _, _, _, _, _, _, _, _, _, rfl⟩ := h
  exact ⟨hs.decoder, hs.config, hs.transmit, hs.queue⟩

/-- The pin's level matters in EMIT only. -/
theorem pinInv_of_not_emit {s : State} (h : s.txph ≠ .emit) : PinInv s := fun hemit => absurd hemit h

/-- After a part of the tick that is followed by neither a drive nor HOST's first part, TXPH may be any. -/
theorem turnInv_of_part {s : State} (hdrive : s.tickPhase ≠ .drive) (hearly : s.tickPhase ≠ .hostEarly) : TurnInv s :=
  ⟨fun h => absurd h hdrive, fun h => absurd h hearly⟩

/-! ### HOST's instructions -/

/-- An instruction of HOST, issued in IDLE, keeps the transmitter's registers consistent: INIT enables the decoder
path, TX_SEND is issued after INIT, and no other touches them. -/
theorem Effect.transmitInv_of_host {i : Instr} {s t : State} (h : Effect i s t) (hi : ofBlock i = false)
    (hidle : s.txph = .idle) (hs : TransmitInv s) : TransmitInv t := by
  have hquiet : s.txph ≠ .emit := hidle.trans_ne nofun
  obtain ⟨hoe, hen, hbefore, -⟩ := hs
  have hreleased : s.txoe ≠ true := mt hoe.1 hquiet
  cases h with
  | init a b =>
    exact ⟨hoe, ⟨fun _ => ⟨rfl, hquiet⟩, fun _ => rfl⟩, fun _ => hidle, fun h => absurd h hquiet⟩
  | send _ w hinit =>
    refine ⟨⟨fun h => absurd h hreleased, nofun⟩, ⟨fun _ => ⟨hinit, nofun⟩, fun _ => hen.2 ⟨hinit, hquiet⟩⟩,
      fun h => ?_, nofun⟩
    exact absurd (hinit.symm.trans h) nofun
  | frame w => exact absurd hi nofun
  | edge => exact absurd hi nofun
  | drive _ level hsymbol => rcases hsymbol with rfl | rfl | rfl | rfl <;> exact absurd hi nofun
  | push w => rw [pushWord_eq]; exact ⟨hoe, hen, hbefore, fun h => absurd h hquiet⟩
  | read => rw [readWord_eq]; exact ⟨hoe, hen, hbefore, fun h => absurd h hquiet⟩
  | dispatch _ w => rw [dispatchWord_eq]; exact ⟨hoe, hen, hbefore, fun h => absurd h hquiet⟩
  | _ => exact ⟨hoe, hen, hbefore, fun h => absurd h hquiet⟩

theorem Effect.decoderInv {i : Instr} {s t : State} (h : Effect i s t) (hs : DecoderInv s) : DecoderInv t := by
  by_cases hi : i = .rxEdge
  · subst hi
    cases h with
    | edge => exact rxEdgeStep_decoderInv hs
    | dispatch _ w => rw [dispatchWord_eq]; exact hs
    | _ => exact hs
  · obtain ⟨-, hacc, hcnt⟩ := h.decoder_registers hi
    rw [DecoderInv, hacc, hcnt]
    exact hs

theorem Effect.queueInv {i : Instr} {s t : State} (h : Effect i s t) (hs : QueueInv s) : QueueInv t := by
  cases h with
  | push w => exact (hs.pushWord w).congr rfl rfl rfl
  | read => exact hs.readWord
  | edge => exact rxEdgeStep_queueInv hs
  | dispatch _ w => rw [dispatchWord_eq]; exact hs.congr rfl rfl rfl
  | _ => exact hs.congr rfl rfl rfl

theorem Effect.registersGood {i : Instr} {s t : State} (h : Effect i s t) (hi : ofBlock i = false)
    (hidle : s.txph = .idle) (hs : RegistersGood s) : RegistersGood t where
  decoder := h.decoderInv hs.decoder
  config := h.configInv hs.config
  transmit := h.transmitInv_of_host hi hidle hs.transmit
  queue := h.queueInv hs.queue

/-- No instruction moves the part of the tick, registers a callback or moves the host software. -/
theorem Effect.software {i : Instr} {s t : State} (h : Effect i s t) :
    t.tickPhase = s.tickPhase ∧ t.callback = s.callback ∧ t.hostMode = s.hostMode := by
  cases h with
  | push w => rw [pushWord_eq]; exact ⟨rfl, rfl, rfl⟩
  | read => rw [readWord_eq]; exact ⟨rfl, rfl, rfl⟩
  | edge => rw [rxEdgeStep_eq]; exact ⟨rfl, rfl, rfl⟩
  | dispatch _ w => rw [dispatchWord_eq]; exact ⟨rfl, rfl, rfl⟩
  | _ => exact ⟨rfl, rfl, rfl⟩

/-! ### HOST's turn -/

/-- HOST passes: the pin keeps the level it was driven at, and neither a drive nor HOST's first part follows. -/
theorem passTurn_pin_turn {s : State} (hpart : s.tickPhase ≠ .drive) (hpin : PinInv s) :
    PinInv (passTurn s) ∧ TurnInv (passTurn s) := by
  rcases passTurn_cases s with ⟨-, hpass⟩ | ⟨-, hpass⟩
  all_goals
    rw [hpass]
    exact ⟨fun hemit _ => hpin hemit hpart, turnInv_of_part nofun nofun⟩

theorem hostTurn_registers_pin_turn {s t : State} (hpart : s.tickPhase = .hostEarly ∨ s.tickPhase = .hostLate)
    (hregs : RegistersGood s) (hpin : PinInv s) (hturn : TurnInv s) (h : hostTurn s = .next t) :
    RegistersGood t ∧ PinInv t ∧ TurnInv t := by
  have hdriven : s.tickPhase ≠ .drive := by rcases hpart with hp | hp <;> rw [hp] <;> nofun
  rcases hostTurn_cases h with ⟨u, hu, rfl⟩ | ⟨u, hu, -, rfl⟩ | ⟨ht, hidle⟩ |
    ⟨hidle, u, v, w, c, i, hu, hc, hd, he, hw, rfl⟩
  · refine ⟨hu.passTurn.registersGood hregs, ?_⟩
    obtain ⟨_, _, _, _, _, _, rfl⟩ := hu
    exact passTurn_pin_turn hdriven hpin
  · refine ⟨hu.newTick.registersGood hregs, ?_⟩
    obtain ⟨_, _, _, _, _, _, rfl⟩ := hu
    exact ⟨fun hemit _ => hpin hemit hdriven, turnInv_of_part nofun nofun⟩
  · refine ⟨ht.softwareOrTime.registersGood hregs, ?_⟩
    obtain ⟨_, _, _, _, _, _, rfl⟩ := ht
    exact ⟨hpin, hturn⟩
  · have hi : ofBlock i = false := hc.ofBlock hd
    have heffect : Effect i u v := exec_effect he
    have hregsV : RegistersGood v :=
      heffect.registersGood hi (hu.txph.trans hidle) (hu.softwareOrTime.registersGood hregs)
    have hphase : w.txph = .idle ∨ w.txph = .ctsWait := by
      rw [hw.txph]
      exact (heffect.txph_of_host hi).imp (fun hsame => hsame.trans (hu.txph.trans hidle)) fun hsend => hsend.2.1
    refine ⟨hw.settle.registersGood hregsV, pinInv_of_not_emit ?_, ?_⟩
    · rw [settle_eq]
      rcases hphase with hp | hp <;> exact hp.trans_ne nofun
    · rcases settle_cases w with ⟨-, hsettle⟩ | ⟨hno, hsettle⟩
      · rw [hsettle]
        exact turnInv_of_part nofun nofun
      · have hsame : w.tickPhase = s.tickPhase := hw.tickPhase.trans (heffect.software.1.trans hu.tickPhase)
        rw [hsettle]
        exact ⟨fun hdrive => absurd (hsame.symm.trans hdrive) hdriven, fun _ => hphase.resolve_right hno⟩

/-! ### The host software: a `poll` runs with a callback only (R214) -/

@[simp] theorem afterChoice_callback (s : State) : (afterChoice s).callback = s.callback := by rw [afterChoice_eq]

theorem toYield_callback (a b : Nat) (s : State) : (toYield a b s).callback = s.callback := afterChoice_callback s

theorem settle_software (s : State) : (settle s).callback = s.callback ∧ (settle s).hostMode = s.hostMode := by
  rw [settle_eq]
  exact ⟨rfl, rfl⟩

theorem passTurn_software (s : State) :
    (passTurn s).callback = s.callback ∧ (passTurn s).hostMode = s.hostMode := by
  rcases passTurn_cases s with ⟨-, h⟩ | ⟨-, h⟩
  all_goals
    rw [h]
    exact ⟨rfl, rfl⟩

/-- `HostInv` depends on the registration and on where the host software stands. -/
theorem hostInv_congr {s t : State} (h : t.callback = s.callback ∧ t.hostMode = s.hostMode) (hs : HostInv s) :
    HostInv t := by
  rw [HostInv, h.1, h.2]
  exact hs

/-- Where no `poll` runs, no callback is needed. -/
theorem hostInv_of_not_polling {s : State} (h : polling s.hostMode = false) : HostInv s :=
  fun hp => absurd (h.symm.trans hp) nofun

theorem runCoded_software {c : Coded} {k : State → State} {s t : State} (h : runCoded c k s = .next t) :
    ∃ v, v.callback = s.callback ∧ v.hostMode = s.hostMode ∧ t = k v := by
  obtain ⟨i, v, -, he, e⟩ := runCoded_eq_next.1 h
  obtain ⟨-, hcallback, hmode⟩ := (exec_effect he).software
  exact ⟨v, hcallback, hmode, e⟩

theorem runCoded_callback {c : Coded} {k : State → State} {s t : State} (hk : ∀ v, (k v).callback = v.callback)
    (h : runCoded c k s = .next t) : t.callback = s.callback := by
  obtain ⟨v, hcallback, -, rfl⟩ := runCoded_software h
  exact (hk v).trans hcallback

theorem runCoded_settle_hostInv {c : Coded} {s t : State} (hs : HostInv s) (h : runCoded c settle s = .next t) :
    HostInv t := by
  obtain ⟨v, hcallback, hmode, rfl⟩ := runCoded_software h
  exact hostInv_congr (settle_software v) (hostInv_congr ⟨hcallback, hmode⟩ hs)

theorem pacedTurn_callback {body : State → Result} {s t : State}
    (hbody : ∀ u, body u = .next t → t.callback = u.callback) (h : pacedTurn body s = .next t) :
    t.callback = s.callback := by
  rw [← afterChoice_callback s]
  unfold pacedTurn at h
  split at h
  · cases h
    exact (passTurn_software _).1
  · exact hbody _ h

/-- R214: a call of `poll` goes on with a callback registered only. -/
theorem hostCall_hostInv {call : HostCall} {s t : State} (hs : HostInv s) (h : hostCall call s = .next t) :
    HostInv t := by
  cases call with
  | op c => exact runCoded_settle_hostInv hs h
  | poll n =>
    rw [hostCall] at h
    split at h
    case isTrue hcallback =>
      cases h
      exact fun _ => hcallback
    case isFalse => nomatch h
  | sendKey k =>
    cases h
    exact hostInv_of_not_polling rfl
  | sendKeys cs =>
    rw [hostCall] at h
    split at h
    · cases h
      exact hostInv_of_not_polling rfl
    · nomatch h
  | registerCallback =>
    cases h
    exact fun _ => rfl
  | registerLogger =>
    cases h
    exact hs

theorem freeTurn_hostInv {s t : State} (hs : HostInv s) (h : freeTurn s = .next t) : HostInv t := by
  unfold freeTurn at h
  split at h
  case h_1 =>
    cases h
    exact hostInv_congr (passTurn_software s) hs
  case h_2 =>
    split at h
    · cases h
      exact hostInv_congr (passTurn_software s) hs
    · cases h
      exact hs
  case h_3 rest _ =>
    split at h
    · exact hostCall_hostInv (s := { s with hostIn := rest }) hs h
    · cases h
      exact hostInv_congr (passTurn_software s) hs

theorem sendingTurn_hostInv {ws : List Word} {s t : State} (hs : HostInv s) (h : sendingTurn ws s = .next t) :
    HostInv t := by
  unfold sendingTurn at h
  split at h
  · cases h
    exact hostInv_of_not_polling rfl
  · split at h
    · exact runCoded_settle_hostInv (hostInv_of_not_polling rfl) h
    · cases h
      exact hostInv_congr (passTurn_software s) hs

theorem pollTestTurn_callback {a b : Nat} {s t : State} (h : pollTestTurn a b s = .next t) :
    t.callback = s.callback := by
  unfold pollTestTurn at h
  split at h
  · cases h
    rfl
  · refine runCoded_callback (fun v => ?_) h
    rfl

theorem pollCheckTurn_callback {a b : Nat} {s t : State} (h : pollCheckTurn a b s = .next t) :
    t.callback = s.callback := by
  refine runCoded_callback (fun v => ?_) h
  split
  · rfl
  · exact toYield_callback a b v

theorem pollReadTurn_callback {a b : Nat} {s t : State} (h : pollReadTurn a b s = .next t) :
    t.callback = s.callback := by
  refine runCoded_callback (fun v => ?_) h
  rfl

theorem pollValidTurn_callback {a b : Nat} {w : Word} {s t : State} (h : pollValidTurn a b w s = .next t) :
    t.callback = s.callback := by
  refine runCoded_callback (fun v => ?_) h
  split
  · exact toYield_callback a b v
  · rfl

theorem pollHandleTurn_callback {a b : Nat} {w : Word} {s t : State} (h : pollHandleTurn a b w s = .next t) :
    t.callback = s.callback :=
  runCoded_callback (toYield_callback a b) h

theorem pollYieldTurn_callback {a b n : Nat} {s t : State} (h : pollYieldTurn a b n s = .next t) :
    t.callback = s.callback := by
  unfold pollYieldTurn at h
  split at h
  · cases h
    rfl
  · split at h
    · cases h
      exact (passTurn_software s).1
    · cases h
      exact (passTurn_software _).1

/-- HOST's turn registers a callback or keeps it, and begins a `poll` with a callback only. -/
theorem hostTurn_hostInv {s t : State} (hs : HostInv s) (h : hostTurn s = .next t) : HostInv t := by
  unfold hostTurn at h
  split at h
  case isFalse =>
    cases h
    exact hostInv_congr (passTurn_software s) hs
  case isTrue =>
    have ofPolling (hp : polling s.hostMode = true) (hkeeps : t.callback = s.callback) : HostInv t :=
      fun _ => hkeeps.trans (hs hp)
    cases hmode : s.hostMode with
    | free => rw [hmode] at h; exact freeTurn_hostInv hs h
    | sending ws => rw [hmode] at h; exact sendingTurn_hostInv hs h
    | pollTest a b =>
      rw [hmode] at h ofPolling
      exact ofPolling rfl (pacedTurn_callback (fun _ => pollTestTurn_callback) h)
    | pollCheck a b =>
      rw [hmode] at h ofPolling
      exact ofPolling rfl (pacedTurn_callback (fun _ => pollCheckTurn_callback) h)
    | pollRead a b =>
      rw [hmode] at h ofPolling
      exact ofPolling rfl (pacedTurn_callback (fun _ => pollReadTurn_callback) h)
    | pollValid a b w =>
      rw [hmode] at h ofPolling
      exact ofPolling rfl (pacedTurn_callback (fun _ => pollValidTurn_callback) h)
    | pollHandle a b w =>
      rw [hmode] at h ofPolling
      exact ofPolling rfl (pacedTurn_callback (fun _ => pollHandleTurn_callback) h)
    | pollYield a b n =>
      rw [hmode] at h ofPolling
      exact ofPolling rfl (pollYieldTurn_callback h)

/-- HOST's parts of a tick lead from a good state to a good state. -/
theorem hostTurn_inv {s t : State} (hpart : s.tickPhase = .hostEarly ∨ s.tickPhase = .hostLate) (hs : Inv s)
    (h : hostTurn s = .next t) : Inv t := by
  obtain ⟨hregs, hpin, hturn, hhost⟩ := (inv_iff s).1 hs
  obtain ⟨hregsT, hpinT, hturnT⟩ := hostTurn_registers_pin_turn hpart hregs hpin hturn h
  exact (inv_iff t).2 ⟨hregsT, hpinT, hturnT, hostTurn_hostInv hhost h⟩

/-! ### The edge detector's part of a tick -/

/-- The edge detector writes RXPREV and lets HOST follow. -/
theorem afterEdge_inv {s : State} (hregs : RegistersGood s) (hpin : PinInv s) (hhost : HostInv s)
    (hdriven : s.tickPhase ≠ .drive) : Inv (afterEdge s) :=
  (inv_iff _).2 ⟨⟨hregs.decoder, hregs.config, hregs.transmit, hregs.queue.congr rfl rfl rfl⟩,
    fun hemit _ => hpin hemit hdriven, turnInv_of_part nofun nofun, hhost⟩

/-- RX_EDGE touches the decoder's registers and the queue only. -/
theorem rxEdgeStep_registersGood {s : State} (h : RegistersGood s) : RegistersGood (rxEdgeStep s) where
  decoder := rxEdgeStep_decoderInv h.decoder
  config := by rw [rxEdgeStep_eq]; exact h.config
  transmit := by rw [rxEdgeStep_eq]; exact h.transmit
  queue := rxEdgeStep_queueInv h.queue

theorem edgeTurn_inv {s t : State} (hpart : s.tickPhase = .edge) (hs : Inv s) (h : edgeTurn s = .next t) : Inv t := by
  have hdriven : s.tickPhase ≠ .drive := hpart.trans_ne nofun
  obtain ⟨hregs, hpin, -, hhost⟩ := (inv_iff s).1 hs
  rcases edgeTurn_cases s with ⟨-, hturn⟩ | ⟨-, hturn⟩
  all_goals rw [← Host.Outcome.next.inj (hturn.symm.trans h)]
  · refine afterEdge_inv (rxEdgeStep_registersGood hregs) ?_ ?_ ?_
    all_goals rw [rxEdgeStep_eq]
    · exact hpin
    · exact hhost
    · exact hdriven
  · exact afterEdge_inv hregs hpin hhost hdriven

/-! ### The transmitter's parts of a tick -/

/-- What is left to show where the transmitter has written its own registers only. -/
theorem inv_of_transmitterOnly {s t : State} (h : TransmitterOnly s t) (hs : Inv s) (htransmit : TransmitInv t)
    (hpin : PinInv t) (hturn : TurnInv t) : Inv t := by
  obtain ⟨hregs, -, -, hhost⟩ := (inv_iff s).1 hs
  obtain ⟨_, _, _, _, _, _, _, _, rfl⟩ := h
  exact (inv_iff _).2 ⟨⟨hregs.decoder, hregs.config, htransmit, hregs.queue.congr rfl rfl rfl⟩, hpin, hturn, hhost⟩

/-- The drive of the pin gives it the level of its chip. -/
theorem driveTurn_inv {s t : State} (hpart : s.tickPhase = .drive) (hs : Inv s) (h : step s = .next t) : Inv t := by
  obtain ⟨hregs, -, ⟨hemit, -⟩, -⟩ := (inv_iff s).1 hs
  obtain ⟨-, -, -, htxk⟩ := hregs.transmit
  have honly : TransmitterOnly s t := step_transmitterOnly (.inr hpart) h
  cases (step_drive_emit hpart (hemit hpart) (chipIndex_lt (htxk (hemit hpart)))).symm.trans h
  exact inv_of_transmitterOnly honly hs hregs.transmit (fun _ _ => rfl) (turnInv_of_part nofun nofun)

/-- R123: the start of emission enables the pin, and disables the decoder path. -/
theorem beginEmission_transmitInv {s : State} (hwait : s.txph = .ctsWait) (hconfig : ConfigInv s)
    (hs : TransmitInv s) : TransmitInv (beginEmission s) := by
  obtain ⟨-, -, hbefore, -⟩ := hs
  refine ⟨⟨fun _ => rfl, fun _ => rfl⟩, ⟨nofun, fun h => absurd rfl h.2⟩, fun h => ?_, fun _ => ?_⟩
  · exact absurd (hwait.symm.trans (hbefore h)) nofun
  · exact Nat.mul_pos (by decide) hconfig.1

/-- R126: within the frame TXK counts on. -/
theorem advanceTxk_transmitInv {s : State} (hemit : s.txph = .emit)
    (hmore : (advanceTxk s).txk.toNat ≠ frameTicks s) (hs : TransmitInv s) : TransmitInv (advanceTxk s) := by
  obtain ⟨hoe, hen, hbefore, htxk⟩ := hs
  have hbelow : s.txk.toNat < 50 * s.bitTime.toNat := htxk hemit
  have hcount : (advanceTxk s).txk.toNat = s.txk.toNat + 1 := advanceTxk_txk_toNat hbelow
  have hne : s.txk.toNat + 1 ≠ 50 * s.bitTime.toNat := fun hlast => hmore (hcount.trans hlast)
  exact ⟨hoe, hen, hbefore, fun _ => hcount.trans_lt (lt_of_le_of_ne hbelow hne)⟩

/-- R127: the end of emission releases the pin and enables the decoder path again. -/
theorem endEmission_transmitInv {s : State} (hinit : s.initd = true) : TransmitInv (endEmission s) :=
  ⟨⟨nofun, nofun⟩, ⟨fun _ => ⟨hinit, nofun⟩, fun _ => rfl⟩, fun _ => rfl, nofun⟩

/-- R141: nothing is sent before INIT. -/
theorem initd_of_emit {s : State} (hemit : s.txph = .emit) (hs : TransmitInv s) : s.initd = true := by
  obtain ⟨-, -, hbefore, -⟩ := hs
  exact eq_true_of_ne_false fun h => absurd (hemit.symm.trans (hbefore h)) nofun

/-- The pin's level is tested again after the drive that follows. -/
theorem pinInv_of_drive {s : State} (h : s.tickPhase = .drive) : PinInv s := fun _ hne => absurd h hne

theorem turnInv_of_drive {s : State} (h : s.tickPhase = .drive) (hemit : s.txph = .emit) : TurnInv s :=
  ⟨fun _ => hemit, fun hearly => absurd (h.symm.trans hearly) nofun⟩

theorem turnInv_of_hostEarly {s : State} (h : s.tickPhase = .hostEarly) (hidle : s.txph = .idle) : TurnInv s :=
  ⟨fun hdrive => absurd (h.symm.trans hdrive) nofun, fun _ => hidle⟩

theorem transmitTurn_inv {s t : State} (hs : Inv s) (h : transmitTurn s = .next t) : Inv t := by
  have hregs : RegistersGood s := ((inv_iff s).1 hs).1
  have honly : TransmitterOnly s t := transmitTurn_transmitterOnly h
  rcases transmitTurn_cases s with ⟨hidle, hturn⟩ | ⟨hwait, -, hturn⟩ | ⟨hwait, -, hturn⟩ | ⟨hemit, -, hturn⟩ |
    ⟨hemit, hmore, hturn⟩
  all_goals cases hturn.symm.trans h
  · exact inv_of_transmitterOnly honly hs hregs.transmit (pinInv_of_not_emit (hidle.trans_ne nofun))
      (turnInv_of_hostEarly rfl hidle)
  · have hbegin : TransmitInv (beginEmission (sampleLine s)) :=
      beginEmission_transmitInv (s := sampleLine s) hwait hregs.config hregs.transmit
    exact inv_of_transmitterOnly honly hs hbegin (pinInv_of_drive rfl) (turnInv_of_drive rfl rfl)
  · exact inv_of_transmitterOnly honly hs hregs.transmit (pinInv_of_not_emit (hwait.trans_ne nofun))
      (turnInv_of_part nofun nofun)
  · have hinit : s.initd = true := initd_of_emit hemit hregs.transmit
    exact inv_of_transmitterOnly honly hs (endEmission_transmitInv (s := advanceTxk s) hinit)
      (pinInv_of_not_emit nofun) (turnInv_of_hostEarly rfl rfl)
  · exact inv_of_transmitterOnly honly hs (advanceTxk_transmitInv hemit hmore hregs.transmit) (pinInv_of_drive rfl)
      (turnInv_of_drive rfl hemit)

/-- Settles O53, by the agent whose part of the tick it is. -/
theorem everyStepKeepsGoodStates : Obligations.EveryStepKeepsGoodStates := by
  intro s t hs h
  cases hpart : s.tickPhase with
  | transmit => exact transmitTurn_inv hs ((step_transmit hpart).symm.trans h)
  | drive => exact driveTurn_inv hpart hs h
  | edge => exact edgeTurn_inv hpart hs ((step_edge hpart).symm.trans h)
  | hostEarly => exact hostTurn_inv (.inl hpart) hs ((step_hostEarly hpart).symm.trans h)
  | hostLate => exact hostTurn_inv (.inr hpart) hs ((step_hostLate hpart).symm.trans h)

end Sys2Proof.Machine
end

section
/-! PROOFS. The words and the tables of the host software (45_host_sequences.md): the dispatcher's handling of a word,
the validity of the table words, the digits. -/

namespace Sys2Proof.Machine

/-! ### The dispatcher (R161, R169) -/

theorem exec_word_eq (w : Word) (s : State) : exec (.word w) s = .next (dispatchWord w s) := rfl

/-- R161: an invalid word is dropped. -/
theorem dispatchWord_of_invalid {w : Word} (h : validWord w = false) (s : State) : dispatchWord w s = s := by
  rw [dispatchWord, h, if_neg Bool.false_ne_true]

/-- R161, R162: a valid word delivers the event of its row, if it has one, after those delivered before. -/
theorem dispatchWord_of_valid {w : Word} (h : validWord w = true) (s : State) :
    dispatchWord w s = { s with events := s.events ++ (eventTable w).toList } := by
  rw [dispatchWord, if_pos h]
  cases eventTable w with
  | some e => rfl
  | none => simp only [Option.toList_none, List.append_nil]

theorem validWord_iff (w : Word) : validWord w = true ↔ onesOf w % 2 = 0 := by
  rw [validWord_eq_decide, decide_eq_true_iff]

theorem validWord_false_iff (w : Word) : validWord w = false ↔ onesOf w % 2 = 1 := by
  rw [validWord_eq_decide, decide_eq_false_iff_not, Nat.mod_two_not_eq_zero]

/-- Settles O54, by the validity of the word. -/
theorem dispatcherHandlesAWord : Obligations.DispatcherHandlesAWord := by
  intro w s
  rw [exec_word_eq]
  refine ⟨fun hodd => ?dropped, fun heven => ?lookedUp⟩
  case dropped => rw [dispatchWord_of_invalid ((validWord_false_iff w).2 hodd)]
  case lookedUp => rw [dispatchWord_of_valid ((validWord_iff w).2 heven)]

theorem eventTable_alarmArmed : eventTable 0x49C1 = some .alarmArmed := rfl

theorem eventTable_sensorZ1A : eventTable 0x1615 = some .sensorZ1 := rfl

theorem eventTable_sensorZ1B : eventTable 0xB08A = some .sensorZ1 := rfl

/-- R170: the words of the known rows have an even number of ones. -/
theorem validWord_of_mem_eventWords {w : Word} (h : w ∈ eventWords) : validWord w = true := by
  simp only [eventWords, List.mem_cons, List.not_mem_nil, or_false] at h
  rcases h with rfl | rfl | rfl
  all_goals rfl

/-- A word of a known row delivers the event of its row. -/
theorem dispatchWord_of_known {w : Word} {e : Event} (hw : w ∈ eventWords) (he : eventTable w = some e) (s : State) :
    dispatchWord w s = { s with events := s.events ++ [e] } := by
  rw [dispatchWord_of_valid (validWord_of_mem_eventWords hw), he, Option.toList_some]

/-- Settles O55: the three known words are valid and stand in the table. -/
theorem knownEventWordsCallTheCallback : Obligations.KnownEventWordsCallTheCallback := by
  intro s
  have hnext {w : Word} {e : Event} (hw : w ∈ eventWords) (he : eventTable w = some e) :
      (.next (dispatchWord w s) : Result) = .next { s with events := s.events ++ [e] } :=
    congrArg _ (dispatchWord_of_known hw he s)
  refine ⟨hnext ?_ eventTable_alarmArmed, hnext ?_ eventTable_sensorZ1A, hnext ?_ eventTable_sensorZ1B,
    eventTable_alarmArmed, eventTable_sensorZ1A, eventTable_sensorZ1B⟩
  all_goals decide

/-! ### The Key table (R165, R166, R170) -/

theorem keyTable_zonaIn : keyTable .zonaIn = [0x00CF, 0x0000] := rfl

theorem keyTable_of_ne {k : Key} (h : k ≠ .zonaIn) :
    keyTable k = madeValid (Config.otherKeyWords k).1 :: ((Config.otherKeyWords k).2.map madeValid).toList := by
  rw [keyTable, if_neg h]

/-- Settles O56: the two rows of ZONA_IN mean the TX_SEND of their words. -/
theorem zonaInSendsItsTwoWords : Obligations.ZonaInSendsItsTwoWords :=
  fun _ => ⟨keyTable_zonaIn, rfl, rfl, fun hinit => ⟨exec_txSend_of 0x00CF hinit, exec_txSend_of 0x0000 hinit⟩⟩

/-- The word made valid differs in one bit from an invalid one. -/
theorem validWord_madeValid (w : Word) : validWord (madeValid w) = true := by
  have hbit : onesOf 0x8000 = 1 := onesOf_one_shiftLeft (i := 15) (by decide)
  rw [madeValid]
  split
  case isTrue hvalid => exact hvalid
  case isFalse hinvalid =>
    rw [validWord_xor_of_odd w (by rw [hbit]), eq_false_of_ne_true hinvalid]
    rfl

/-- R170: every word of the Key table is valid. -/
theorem validWord_of_mem_keyTable {k : Key} {w : Word} (h : w ∈ keyTable k) : validWord w = true := by
  by_cases hk : k = .zonaIn
  · rw [hk, keyTable_zonaIn, List.mem_cons, List.mem_singleton] at h
    rcases h with rfl | rfl
    all_goals rfl
  · rw [keyTable_of_ne hk, List.mem_cons, Option.mem_toList, Option.map_eq_some_iff] at h
    rcases h with hfirst | ⟨v, -, hsecond⟩
    · rw [hfirst]
      exact validWord_madeValid _
    · rw [← hsecond]
      exact validWord_madeValid v

/-- R166: a key has one or two words. -/
theorem keyTable_length (k : Key) : (keyTable k).length = 1 ∨ (keyTable k).length = 2 := by
  by_cases hk : k = .zonaIn
  · exact .inr (by rw [hk, keyTable_zonaIn]; rfl)
  · rw [keyTable_of_ne hk]
    cases (Config.otherKeyWords k).2 with
    | none => exact .inl rfl
    | some v => exact .inr rfl

/-- R170: a word with an event is a known one or is tested. -/
theorem validWord_of_eventTable {w : Word} {e : Event} (h : eventTable w = some e) : validWord w = true := by
  by_cases hknown : w ∈ eventWords
  · exact validWord_of_mem_eventWords hknown
  · simp only [eventWords, List.mem_cons, List.not_mem_nil, or_false, not_or] at hknown
    obtain ⟨halarm, hsensorA, hsensorB⟩ := hknown
    rw [eventTable, if_neg halarm, if_neg hsensorA, if_neg hsensorB] at h
    exact by_contra fun hinvalid => nomatch (if_neg hinvalid).symm.trans h

/-- Settles O57, from the validity of the known words, of the words made valid, and of the words tested. -/
theorem tableWordsAreValid : Obligations.TableWordsAreValid :=
  ⟨fun _ w h => (validWord_iff w).1 (validWord_of_mem_keyTable h), keyTable_length,
    fun w _ h => (validWord_iff w).1 (validWord_of_eventTable h)⟩

/-! ### Digits (R167, R168) -/

/-- A character that denotes a key is one of 0 to 9. -/
theorem digit_of_digitKey {ch : Char} {k : Key} (h : digitKey ch = some k) : '0' ≤ ch ∧ ch ≤ '9' := by
  unfold digitKey at h
  split at h
  case h_11 => nomatch h
  all_goals decide

/-- Each of the characters 0 to 9 denotes a key. -/
theorem digitKey_ne_none {ch : Char} (h : '0' ≤ ch ∧ ch ≤ '9') : digitKey ch ≠ none := by
  obtain ⟨hlow, hhigh⟩ := h
  have hlow' : 48 ≤ ch.toNat := hlow
  have hhigh' : ch.toNat ≤ 57 := hhigh
  rw [← Char.ofNat_toNat ch]
  interval_cases ch.toNat
  all_goals exact nofun

theorem digitKey_eq_none_iff (ch : Char) : digitKey ch = none ↔ ¬ ('0' ≤ ch ∧ ch ≤ '9') := by
  refine ⟨fun h hdigit => digitKey_ne_none hdigit h, fun h => ?_⟩
  cases hkey : digitKey ch with
  | none => rfl
  | some k => exact absurd (digit_of_digitKey hkey) h

/-- R168: a sequence has no words exactly if one of its characters is no digit. -/
theorem digitWords_eq_none_iff (cs : List Char) : digitWords cs = none ↔ ∃ ch ∈ cs, ¬ ('0' ≤ ch ∧ ch ≤ '9') := by
  induction cs with
  | nil => exact iff_of_false nofun fun ⟨_, hmem, _⟩ => nomatch hmem
  | cons ch cs ih =>
    rw [List.exists_mem_cons_iff, ← digitKey_eq_none_iff, ← ih, digitWords]
    cases digitKey ch with
    | none => exact iff_of_true rfl (.inl rfl)
    | some k =>
      cases digitWords cs with
      | none => exact iff_of_true rfl (.inr rfl)
      | some ws => exact iff_of_false nofun (Or.rec nofun nofun)

theorem digitKey_of_mem_digitPairs {p : Char × Key} (h : p ∈ digitPairs) : digitKey p.1 = some p.2 := by
  have hall : ∀ q ∈ digitPairs, digitKey q.1 = some q.2 := by decide
  exact hall p h

/-- R167: the words of a sequence of digits are those of their keys, in order. -/
theorem digitWords_of_digitPairs {ps : List (Char × Key)} (h : ∀ p ∈ ps, p ∈ digitPairs) :
    digitWords (ps.map (·.1)) = some (ps.flatMap fun p => keyTable p.2) := by
  induction ps with
  | nil => rfl
  | cons p ps ih =>
    rw [List.forall_mem_cons] at h
    rw [List.map_cons, digitWords, digitKey_of_mem_digitPairs h.1, ih h.2, List.flatMap_cons]

end Sys2Proof.Machine
end

section
/-! PROOFS. What is refused (R9): the refusals of each instruction, of each item HOST issues and of each step of the
host software; every other step goes on. -/

namespace Sys2Proof.Machine

/-! ### Going on, or being refused for a reason -/

/-- The machine goes on, or it is refused for a reason of which `P` holds. -/
def GoesOnOr (P : Refusal → Prop) (o : Result) : Prop := (∃ t, o = .next t) ∨ ∃ r, o = .refused r ∧ P r

theorem GoesOnOr.next (P : Refusal → Prop) (t : State) : GoesOnOr P (.next t) := .inl ⟨t, rfl⟩

theorem GoesOnOr.refused {P : Refusal → Prop} {r : Refusal} (h : P r) : GoesOnOr P (.refused r) := .inr ⟨r, rfl, h⟩

theorem GoesOnOr.imp {P Q : Refusal → Prop} {o : Result} (h : GoesOnOr P o) (hPQ : ∀ r, P r → Q r) : GoesOnOr Q o :=
  Or.imp id (fun ⟨r, ho, hr⟩ => ⟨r, ho, hPQ r hr⟩) h

theorem GoesOnOr.mapNext {P : Refusal → Prop} {o : Result} (h : GoesOnOr P o) (k : State → State) :
    GoesOnOr P (mapNext k o) := by
  rcases h with ⟨t, rfl⟩ | ⟨r, rfl, hr⟩
  · exact .next P (k t)
  · exact .refused hr

/-! ### Instructions (R141, R147) -/

/-- The refusals of an instruction. -/
inductive RefusedFor : Instr → State → Refusal → Prop where
  | beforeInit {i : Instr} {s : State} : s.initd = false → (∀ a b, i ≠ .init a b) → RefusedFor i s .beforeInit
  | secondInit (a b : Bool) {s : State} : s.initd = true → RefusedFor (.init a b) s .secondInit
  | bitTime (v : Word) {s : State} : s.initd = true → ¬ (1 ≤ v.toNat ∧ s.zeroTime.toNat < 2 * v.toNat) →
      RefusedFor (.wrBitTime v) s .illFormedConfiguration
  | zeroTime (v : Word) {s : State} : s.initd = true → 2 * s.bitTime.toNat ≤ v.toNat →
      RefusedFor (.wrZeroTime v) s .illFormedConfiguration

/-- An operation other than INIT is refused before INIT; after it, its own conditions decide. -/
theorem whenInitialised_goesOnOr {i : Instr} {s : State} {o : Result} (hi : ∀ a b, i ≠ .init a b)
    (ho : s.initd = true → GoesOnOr (RefusedFor i s) o) : GoesOnOr (RefusedFor i s) (whenInitialised s o) := by
  cases hinit : s.initd with
  | false =>
    rw [whenInitialised_before o hinit]
    exact .refused (.beforeInit hinit hi)
  | true =>
    rw [whenInitialised_of o hinit]
    exact ho hinit

theorem exec_goesOnOr (i : Instr) (s : State) : GoesOnOr (RefusedFor i s) (exec i s) := by
  cases i with
  | init a b =>
    cases hinit : s.initd with
    | false => exact exec_init_of a b hinit ▸ .next _ _
    | true =>
      have hrefused : exec (.init a b) s = .refused .secondInit := if_pos hinit
      exact hrefused ▸ .refused (.secondInit a b hinit)
  | wrBitTime v =>
    refine whenInitialised_goesOnOr nofun fun hinit => ?_
    by_cases hform : 1 ≤ v.toNat ∧ s.zeroTime.toNat < 2 * v.toNat
    · exact keepingForm_eq_next.2 ⟨hform, rfl⟩ ▸ .next _ _
    · exact keepingForm_of_illFormed _ hform ▸ .refused (.bitTime v hinit hform)
  | wrZeroTime v =>
    refine whenInitialised_goesOnOr nofun fun hinit => ?_
    split
    case isTrue => exact .next _ _
    case isFalse hform => exact .refused (.zeroTime v hinit (not_lt.1 (mt (zeroTimeFits_iff v s).2 hform)))
  | rxEdge | txsymStart | txsymBit0 | txsymBit1 | txsymStop => exact .next _ _
  | txFrame w | word w => exact .next _ _
  | wordAlarmArmed | wordSensorZ1A | wordSensorZ1B => exact .next _ _
  | _ => exact whenInitialised_goesOnOr nofun fun _ => .next _ _

theorem runCoded_goesOnOr {c : Coded} {i : Instr} (hd : decode c = .ok i) (k : State → State) (s : State) :
    GoesOnOr (RefusedFor i s) (runCoded c k s) := by
  rw [runCoded, hd]
  exact (exec_goesOnOr i s).mapNext k

/-- R141: a host operation other than INIT is refused while INITD is 0. -/
theorem exec_command_before {c : Command} {i : Instr} {s : State} (hd : decodeCommand c = .ok i)
    (hi : ∀ a b, i ≠ .init a b) (hinit : s.initd = false) : exec i s = .refused .beforeInit := by
  unfold decodeCommand at hd
  split at hd
  case h_1 =>
    cases hd
    exact absurd rfl (hi _ _)
  case h_22 => nomatch hd
  all_goals
    cases hd
    exact whenInitialised_before _ hinit

/-- Settles O30, from INIT's own test and the test that every other operation makes. -/
theorem initIsFirstAndOnce : Obligations.InitIsFirstAndOnce := by
  intro c i s hd
  refine ⟨?second, fun hi hinit => exec_command_before hd hi hinit⟩
  case second =>
    rintro ⟨a, b, rfl⟩ hinit
    exact if_pos hinit

/-! ### The parts of a tick that are not HOST's (R9) -/

theorem transmitTurn_goesOn (s : State) : ∃ t, transmitTurn s = .next t := by
  rcases transmitTurn_cases s with ⟨-, h⟩ | ⟨-, -, h⟩ | ⟨-, -, h⟩ | ⟨-, -, h⟩ | ⟨-, -, h⟩
  all_goals exact ⟨_, h⟩

theorem driveTurn_goesOn (s : State) : ∃ t, driveTurn s = .next t := by
  rcases driveTurn_cases s with ⟨-, h⟩ | ⟨-, _, h⟩
  all_goals exact ⟨_, h⟩

theorem edgeTurn_goesOn (s : State) : ∃ t, edgeTurn s = .next t := by
  rcases edgeTurn_cases s with ⟨-, h⟩ | ⟨-, h⟩
  all_goals exact ⟨_, h⟩

/-- Settles O50, by the agent whose part of the tick it is. -/
theorem onlyTheHostIsRefused : Obligations.OnlyTheHostIsRefused := by
  intro s hearly hlate
  cases hpart : s.tickPhase with
  | transmit => exact step_transmit hpart ▸ transmitTurn_goesOn s
  | drive => exact step_drive hpart ▸ driveTurn_goesOn s
  | edge => exact step_edge hpart ▸ edgeTurn_goesOn s
  | hostEarly => exact absurd hpart hearly
  | hostLate => exact absurd hpart hlate

/-! ### The items HOST issues (R72, R141, R147, R168) -/

/-- The refusals of an item for a reason of its own. -/
def RefusedCall (s : State) (call : HostCall) (r : Refusal) : Prop :=
  (r = .undecodable .reservedCode ∧ ∃ c, call = .op c ∧ decode (.command c) = .error .reservedCode) ∨
  (r = .secondInit ∧ s.initd = true ∧ ∃ c a b, call = .op c ∧ decode (.command c) = .ok (.init a b)) ∨
  (r = .illFormedConfiguration ∧ s.initd = true ∧ ∃ c v, call = .op c ∧
    ((decode (.command c) = .ok (.wrBitTime v) ∧ ¬ (1 ≤ v.toNat ∧ s.zeroTime.toNat < 2 * v.toNat)) ∨
     (decode (.command c) = .ok (.wrZeroTime v) ∧ 2 * s.bitTime.toNat ≤ v.toNat))) ∨
  (r = .nonDigit ∧ ∃ cs, call = .sendKeys cs ∧ ∃ ch ∈ cs, ¬ ('0' ≤ ch ∧ ch ≤ '9')) ∨
  (r = .noCallback ∧ s.callback = false ∧ ∃ n, call = .poll n)

/-- The refusal of an operation before INIT. -/
def RefusedBeforeInit (s : State) (call : HostCall) (r : Refusal) : Prop :=
  r = .beforeInit ∧ s.initd = false ∧ ∃ c i, call = .op c ∧ decode (.command c) = .ok i ∧ ∀ a b, i ≠ .init a b

/-- R72: a command that does not decode has a reserved code. -/
theorem decodeCommand_error {c : Command} {e : Reject} (h : decodeCommand c = .error e) : e = .reservedCode := by
  unfold decodeCommand at h
  split at h
  case h_22 => exact (Except.error.inj h).symm
  all_goals nomatch h

/-- An operation's refusal is that of the instruction it decodes to. -/
theorem RefusedFor.of_command {c : Command} {i : Instr} {s : State} {r : Refusal} (h : RefusedFor i s r)
    (hd : decode (.command c) = .ok i) : RefusedBeforeInit s (.op c) r ∨ RefusedCall s (.op c) r := by
  cases h with
  | beforeInit hinit hi => exact .inl ⟨rfl, hinit, c, i, rfl, hd, hi⟩
  | secondInit a b hinit => exact .inr (.inr (.inl ⟨rfl, hinit, c, a, b, rfl, hd⟩))
  | bitTime v hinit hform => exact .inr (.inr (.inr (.inl ⟨rfl, hinit, c, v, rfl, .inl ⟨hd, hform⟩⟩)))
  | zeroTime v hinit hform => exact .inr (.inr (.inr (.inl ⟨rfl, hinit, c, v, rfl, .inr ⟨hd, hform⟩⟩)))

theorem hostCall_goesOnOr (call : HostCall) (s : State) :
    GoesOnOr (fun r => RefusedBeforeInit s call r ∨ RefusedCall s call r) (hostCall call s) := by
  cases call with
  | op c =>
    rw [hostCall]
    cases hd : decode (.command c) with
    | ok i => exact (runCoded_goesOnOr hd settle s).imp fun r hr => hr.of_command hd
    | error e =>
      obtain rfl : e = .reservedCode := decodeCommand_error hd
      exact runCoded_of_error settle s hd ▸ .refused (.inr (.inl ⟨rfl, c, rfl, hd⟩))
  | poll n =>
    rw [hostCall]
    split
    case isTrue => exact .next _ _
    case isFalse hcallback =>
      exact .refused (.inr (.inr (.inr (.inr (.inr ⟨rfl, eq_false_of_ne_true hcallback, n, rfl⟩)))))
  | sendKeys cs =>
    rw [hostCall]
    split
    case h_1 => exact .next _ _
    case h_2 hnone =>
      exact .refused (.inr (.inr (.inr (.inr (.inl ⟨rfl, cs, rfl, (digitWords_eq_none_iff cs).1 hnone⟩)))))
  | sendKey _ | registerCallback | registerLogger => exact .next _ _

/-! ### HOST's turn -/

/-- The refusals of HOST's turn: before INIT, of what its software or its next item issues; and of its next item. -/
def RefusedTurn (s : State) (r : Refusal) : Prop :=
  (r = .beforeInit ∧ s.initd = false ∧
    (s.hostMode = .free → ∃ late c rest i, s.hostIn = .issue late (.op c) :: rest ∧
      decode (.command c) = .ok i ∧ ∀ a b, i ≠ .init a b)) ∨
  (s.hostMode = .free ∧ ∃ late call rest, s.hostIn = .issue late call :: rest ∧ RefusedCall s call r)

theorem freeTurn_goesOnOr {s : State} (hfree : s.hostMode = .free) : GoesOnOr (RefusedTurn s) (freeTurn s) := by
  unfold freeTurn
  split
  case h_1 => exact .next _ _
  case h_2 => split <;> exact .next _ _
  case h_3 late call rest hitem =>
    split
    case isFalse => exact .next _ _
    case isTrue =>
      refine (hostCall_goesOnOr call { s with hostIn := rest }).imp fun r hr => ?_
      rcases hr with ⟨hr, hinit, c, i, rfl, hd, hi⟩ | hr
      · exact .inl ⟨hr, hinit, fun _ => ⟨late, c, rest, i, hitem, hd, hi⟩⟩
      · exact .inr ⟨hfree, late, call, rest, hitem, hr⟩

/-- The refusals that are left to an instruction that is neither INIT nor a write of BIT_TIME or ZERO_TIME. -/
def BeforeInitOnly (s : State) (r : Refusal) : Prop := r = .beforeInit ∧ s.initd = false

theorem RefusedFor.beforeInitOnly {i : Instr} {s : State} {r : Refusal} (h : RefusedFor i s r)
    (hinit : ∀ a b, i ≠ .init a b) (hbit : ∀ v, i ≠ .wrBitTime v) (hzero : ∀ v, i ≠ .wrZeroTime v) :
    BeforeInitOnly s r := by
  cases h with
  | beforeInit h _ => exact ⟨rfl, h⟩
  | secondInit a b => exact absurd rfl (hinit a b)
  | bitTime v => exact absurd rfl (hbit v)
  | zeroTime v => exact absurd rfl (hzero v)

theorem runCoded_beforeInitOnly {c : Coded} {i : Instr} (hd : decode c = .ok i) (hinit : ∀ a b, i ≠ .init a b)
    (hbit : ∀ v, i ≠ .wrBitTime v) (hzero : ∀ v, i ≠ .wrZeroTime v) (k : State → State) (s : State) :
    GoesOnOr (BeforeInitOnly s) (runCoded c k s) :=
  (runCoded_goesOnOr hd k s).imp fun _ hr => hr.beforeInitOnly hinit hbit hzero

theorem sendingTurn_goesOnOr (ws : List Word) (s : State) : GoesOnOr (BeforeInitOnly s) (sendingTurn ws s) := by
  cases ws with
  | nil => exact .next _ _
  | cons w ws =>
    rw [sendingTurn]
    split
    case isFalse => exact .next _ _
    case isTrue =>
      rcases decodeKeyWord_ok w with ⟨-, hd⟩ | ⟨-, hd⟩ | hd
      all_goals
        exact runCoded_beforeInitOnly (c := .keyWord w) (s := s.inMode (.sending ws)) hd nofun nofun nofun settle

theorem pollTestTurn_goesOnOr (a b : Nat) (s : State) : GoesOnOr (BeforeInitOnly s) (pollTestTurn a b s) := by
  unfold pollTestTurn
  split
  · exact .next _ _
  · exact runCoded_beforeInitOnly decode_qEmpty nofun nofun nofun _ s

theorem pollHandleTurn_goesOnOr (a b : Nat) (w : Word) (s : State) :
    GoesOnOr (BeforeInitOnly s) (pollHandleTurn a b w s) := by
  rcases decodeWord_ok w with ⟨-, hd⟩ | ⟨-, hd⟩ | ⟨-, hd⟩ | hd
  all_goals exact runCoded_beforeInitOnly (c := .word w) hd nofun nofun nofun (toYield a b) s

theorem pacedTurn_goesOnOr {body : State → Result} {s : State}
    (h : ∀ u, GoesOnOr (BeforeInitOnly u) (body u)) : GoesOnOr (BeforeInitOnly s) (pacedTurn body s) := by
  unfold pacedTurn
  split
  · exact .next _ _
  · refine (h (afterChoice s)).imp fun r ⟨hr, hinit⟩ => ⟨hr, ?_⟩
    rwa [afterChoice_eq] at hinit

theorem pollYieldTurn_goesOnOr (a b n : Nat) (s : State) : GoesOnOr (BeforeInitOnly s) (pollYieldTurn a b n s) := by
  cases n with
  | zero => exact .next _ _
  | succ n =>
    rw [pollYieldTurn]
    split <;> exact .next _ _

/-- HOST's turn goes on, or it is refused, not blocked, for one of the reasons above. -/
theorem hostTurn_goesOnOr (s : State) : GoesOnOr (fun r => s.txph = .idle ∧ RefusedTurn s r) (hostTurn s) := by
  unfold hostTurn
  split
  case isFalse => exact .next _ _
  case isTrue hidle =>
    have ofSoftware {o : Result} (hmode : s.hostMode ≠ .free) (h : GoesOnOr (BeforeInitOnly s) o) :
        GoesOnOr (fun r => s.txph = .idle ∧ RefusedTurn s r) o :=
      h.imp fun r ⟨hr, hinit⟩ => ⟨hidle, .inl ⟨hr, hinit, fun hfree => absurd hfree hmode⟩⟩
    cases hmode : s.hostMode with
    | free => exact (freeTurn_goesOnOr hmode).imp fun r hr => ⟨hidle, hr⟩
    | sending ws => exact ofSoftware (hmode.trans_ne nofun) (sendingTurn_goesOnOr ws s)
    | pollTest a b => exact ofSoftware (hmode.trans_ne nofun) (pacedTurn_goesOnOr (pollTestTurn_goesOnOr a b))
    | pollCheck a b =>
      exact ofSoftware (hmode.trans_ne nofun)
        (pacedTurn_goesOnOr (runCoded_beforeInitOnly decode_qEmpty nofun nofun nofun _))
    | pollRead a b =>
      exact ofSoftware (hmode.trans_ne nofun)
        (pacedTurn_goesOnOr (runCoded_beforeInitOnly decode_qRead nofun nofun nofun _))
    | pollValid a b w =>
      exact ofSoftware (hmode.trans_ne nofun)
        (pacedTurn_goesOnOr (runCoded_beforeInitOnly (decode_pktValid w) nofun nofun nofun _))
    | pollHandle a b w => exact ofSoftware (hmode.trans_ne nofun) (pacedTurn_goesOnOr (pollHandleTurn_goesOnOr a b w))
    | pollYield a b n => exact ofSoftware (hmode.trans_ne nofun) (pollYieldTurn_goesOnOr a b n s)

/-- Settles O49: outside HOST's parts of a tick every step goes on, and in them HOST's turn has the refusals listed.
-/
theorem stepsGoOnOrAreRefusedByRule : Obligations.StepsGoOnOrAreRefusedByRule := by
  intro s
  by_cases hpart : s.tickPhase = .hostEarly ∨ s.tickPhase = .hostLate
  · have hturn : step s = hostTurn s := hpart.elim step_hostEarly step_hostLate
    rw [hturn]
    rcases hostTurn_goesOnOr s with hnext | ⟨r, hr, hidle, hrule⟩
    · exact .inl hnext
    · exact .inr ⟨r, hr, hidle, hpart, hrule⟩
  · rw [not_or] at hpart
    exact .inl (onlyTheHostIsRefused s hpart.1 hpart.2)

end Sys2Proof.Machine
end

section
/-! PROOFS. The steps of HOST and of its software (00_scope.md section 5, 45_host_sequences.md sections 3 and 4): the
items a free HOST issues, `sendKey` and `sendKeys`, and the steps of `poll`. -/

namespace Sys2Proof.Machine

/-! ### Time (R2) -/

/-- NOW counts one modulo 2^32. -/
theorem newTick_eq_ticked (s : State) : newTick s = ticked s (nextEnv s) := by
  have hnow : s.now + 1 = BitVec.ofNat 32 ((s.now.toNat + 1) % 2 ^ 32) := by
    apply BitVec.eq_of_toNat_eq
    rw [BitVec.toNat_add, BitVec.toNat_ofNat, Nat.mod_mod]
    rfl
  rw [newTick, ticked, hnow]

theorem step_host {s : State} (hpart : s.tickPhase = .hostEarly ∨ s.tickPhase = .hostLate) : step s = hostTurn s :=
  hpart.elim step_hostEarly step_hostLate

/-- HOST passes in its first part of a tick: on to the edge detector. -/
theorem passTurn_early {s : State} (hpart : s.tickPhase = .hostEarly) :
    passTurn s = { s with tickPhase := .edge } := passTurn_hostEarly hpart

/-- HOST passes in its second part of a tick: the next tick begins. -/
theorem passTurn_late {s : State} (hpart : s.tickPhase = .hostLate) : passTurn s = ticked s (nextEnv s) := by
  rw [passTurn_hostLate hpart, newTick_eq_ticked]

/-- Settles O44: HOST is blocked, so that its turn passes. -/
theorem hostIsBlockedDuringTransmission : Obligations.HostIsBlockedDuringTransmission := by
  intro s hbusy
  refine ⟨fun hpart => ?early, fun hpart => ?late⟩
  case early => rw [step_hostEarly hpart, hostTurn_of_busy hbusy, passTurn_early hpart]
  case late => rw [step_hostLate hpart, hostTurn_of_busy hbusy, passTurn_late hpart]

/-! ### The items of a free HOST (R4, R5) -/

/-- An item that is due in the other part of the tick lets the tick go on. -/
theorem freeTurn_of_not_due {s : State} {late : Bool} {call : HostCall} {rest : List HostItem}
    (hitem : s.hostIn = .issue late call :: rest) (hdue : s.tickPhase ≠ issuePhase late call) :
    freeTurn s = .next (passTurn s) := by
  simp only [freeTurn, hitem]
  rw [if_neg hdue]

/-- An item that is not marked late is due in HOST's first part of a tick. -/
theorem issuePhase_false (call : HostCall) : issuePhase false call = .hostEarly := rfl

/-- In its last part of a tick a free HOST with nothing due there only lets the next tick begin. -/
theorem step_hostLate_free {s : State} (hpart : s.tickPhase = .hostLate) (hfree : s.hostMode = .free)
    (hnone : s.hostIn = [] ∨ ∃ call rest, s.hostIn = .issue false call :: rest) :
    step s = .next (passTurn s) := by
  rw [step_hostLate hpart]
  by_cases hidle : s.txph = .idle
  · rw [hostTurn_free hidle hfree]
    rcases hnone with hempty | ⟨call, rest, hitem⟩
    · simp only [freeTurn, hempty]
    · exact freeTurn_of_not_due hitem (hpart.trans_ne nofun)
  · exact hostTurn_of_busy hidle

/-- Settles O45, from the turn of a HOST with nothing due. -/
theorem timeAdvancesByOneTick : Obligations.TimeAdvancesByOneTick := by
  intro s hpart hfree hnone
  refine ⟨nextEnv s, ?step, fun d ds henv => nextEnv_of_cons henv⟩
  case step => rw [step_hostLate_free hpart hfree hnone, passTurn_late hpart, ticked]

theorem runCoded_of_refused {c : Coded} {i : Instr} {s : State} {r : Refusal} (k : State → State)
    (hdec : decode c = .ok i) (hexec : exec i s = .refused r) : runCoded c k s = .refused r := by
  simp only [runCoded, hdec, hexec, mapNext]

theorem mustBeEarly_of_init_or_txSend {c : Command} {i : Instr} (hd : decode (.command c) = .ok i)
    (hi : (∃ a b, i = .init a b) ∨ ∃ w, i = .txSend w) : mustBeEarly (.op c) = true := by
  rcases hi with ⟨a, b, rfl⟩ | ⟨w, rfl⟩
  all_goals simp only [mustBeEarly, hd]

theorem mustBeEarly_of_other {c : Command} {i : Instr} (hd : decode (.command c) = .ok i)
    (hinit : ∀ a b, i ≠ .init a b) (hsend : ∀ w, i ≠ .txSend w) : mustBeEarly (.op c) = false := by
  simp only [mustBeEarly, hd]
  split
  case h_1 a b heq => exact absurd (Except.ok.inj heq) (hinit a b)
  case h_2 w heq => exact absurd (Except.ok.inj heq) (hsend w)
  case h_3 => rfl

/-- R5: INIT and TX_SEND are due in HOST's first part of a tick, however their item is marked. -/
theorem issuePhase_of_mustBeEarly (late : Bool) {call : HostCall} (h : mustBeEarly call = true) :
    issuePhase late call = .hostEarly := by
  rw [issuePhase, h, Bool.not_true, Bool.and_false, if_neg Bool.false_ne_true]

/-- Settles O41, from the step of a free HOST and what follows an operation. -/
theorem stepRunsTheHostCommand : Obligations.StepRunsTheHostCommand := by
  intro s late c i rest hpart hidle hfree hitem hd hlate
  have hdue : issuePhase late (.op c) = .hostEarly := by
    cases late with
    | false => exact issuePhase_false _
    | true => exact issuePhase_of_mustBeEarly true (mustBeEarly_of_init_or_txSend hd (hlate rfl))
  rw [step_issue (hpart.trans hdue.symm) hidle hfree hitem, hostCall]
  exact ⟨fun t ht => runCoded_of_ok settle hd ht, fun r hr => runCoded_of_refused settle hd hr⟩

/-! ### The instructions that send a word (R120, R165) -/

/-- The word that an instruction sends. -/
def sentWord : Instr → Option Word
  | .txSend w => some w
  | .wordZonaIn1 => some 0x00CF
  | .wordZonaIn2 => some 0x0000
  | _ => none

/-- R120: the wait that a TX_SEND begins is evaluated in the same tick. -/
theorem settle_beginSend (w : Word) (s : State) : settle (beginSend w s) = (beginSend w s).atPhase .transmit :=
  if_pos rfl

theorem exec_of_sentWord {i : Instr} {w : Word} {s : State} (hi : sentWord i = some w) (hinit : s.initd = true) :
    exec i s = .next (beginSend w s) := by
  cases i with
  | txSend v =>
    cases hi
    exact exec_txSend_of w hinit
  | wordZonaIn1 =>
    cases hi
    exact whenInitialised_of _ hinit
  | wordZonaIn2 =>
    cases hi
    exact whenInitialised_of _ hinit
  | _ => nomatch hi

/-- R165: a word of a key is sent, whichever row it decodes to. -/
theorem sentWord_of_keyWord {w : Word} {i : Instr} (hd : decode (.keyWord w) = .ok i) : sentWord i = some w := by
  have hkey : decodeKeyWord w = .ok i := hd
  rcases decodeKeyWord_ok w with ⟨rfl, h⟩ | ⟨rfl, h⟩ | h
  all_goals
    cases h.symm.trans hkey
    rfl

/-- An instruction of HOST that sends no word does not move TXPH. -/
theorem exec_txph_of_no_send {i : Instr} {s t : State} (hi : ofBlock i = false) (hsend : sentWord i = none)
    (h : exec i s = .next t) : t.txph = s.txph := by
  have ofAnswer {v : Word} (ha : answering s v = .next t) : t.txph = s.txph := by
    rw [(answering_eq_next.1 ha).2, answer_txph]
  have ofUpdate {u : State} (hu : u.txph = s.txph) (ha : whenInitialised s (.next u) = .next t) :
      t.txph = s.txph := by
    rw [← Host.Outcome.next.inj (whenInitialised_eq_next.1 ha).2, hu]
  have ofDispatch {w : Word} (ha : (.next (dispatchWord w s) : Result) = .next t) : t.txph = s.txph := by
    rw [← Host.Outcome.next.inj ha, dispatchWord_eq]
  cases i with
  | txSend | wordZonaIn1 | wordZonaIn2 => nomatch hsend
  | rxEdge | txsymStart | txsymBit0 | txsymBit1 | txsymStop | txFrame => nomatch hi
  | qEmpty | qFull | pktParity | pktId | pktData | pktChk | pktValid => exact ofAnswer h
  | rdStatus | rdCfg | rdBitTime | rdZeroTime | rdIdleTime | rdCtsTime => exact ofAnswer h
  | init a b =>
    rw [exec, execInit] at h
    split at h
    case isTrue => nomatch h
    case isFalse =>
      cases h
      rfl
  | qPush w => exact ofUpdate (by rw [answer_txph, pushWord_eq]) h
  | qRead => exact ofUpdate (readWord_txph s) h
  | wrBitTime v =>
    obtain ⟨-, rfl⟩ := keepingForm_eq_next.1 (whenInitialised_eq_next.1 h).2
    rfl
  | wrZeroTime v =>
    obtain ⟨-, hwrite⟩ := whenInitialised_eq_next.1 h
    split at hwrite
    case isTrue =>
      cases hwrite
      rfl
    case isFalse => nomatch hwrite
  | wrIdleTime v => exact ofUpdate (u := { s with idleTime := v, result := 0 }) rfl h
  | wrCtsTime v => exact ofUpdate (u := { s with ctsTime := v, result := 0 }) rfl h
  | word w => exact ofDispatch h
  | wordAlarmArmed => exact ofDispatch h
  | wordSensorZ1A => exact ofDispatch h
  | wordSensorZ1B => exact ofDispatch h

/-- Among the operations of HOST only TX_SEND sends a word. -/
theorem sentWord_of_command {c : Command} {i : Instr} (hd : decodeCommand c = .ok i) (hi : ∀ w, i ≠ .txSend w) :
    sentWord i = none := by
  unfold decodeCommand at hd
  split at hd
  case h_11 =>
    cases hd
    exact absurd rfl (hi _)
  case h_22 => nomatch hd
  all_goals
    cases hd
    rfl

/-- Settles O42, from the part of the tick in which the item is due. -/
theorem stepRunsTheLateHostCommand : Obligations.StepRunsTheLateHostCommand := by
  intro s c i rest hidle hfree hitem hd
  refine ⟨fun hinit hsend => ?waits, fun hearly hpart => ?putOff⟩
  case waits =>
    have hdue : issuePhase true (.op c) = .hostLate :=
      issuePhase_of_not_mustBeEarly true (mustBeEarly_of_other hd hinit hsend)
    refine ⟨fun hpart => ?runs, fun hpart => ?passes⟩
    case runs =>
      rw [step_issue (hpart.trans hdue.symm) hidle hfree hitem, hostCall]
      refine ⟨fun t ht => ?_, fun r hr => runCoded_of_refused settle hd hr⟩
      have hsame : t.txph = s.txph := exec_txph_of_no_send (s := { s with hostIn := rest })
        (decodeCommand_ofBlock hd) (sentWord_of_command hd hsend) ht
      rw [runCoded_of_ok settle hd ht, settle_idle (hsame.trans hidle)]
    case passes =>
      have hnot : s.tickPhase ≠ issuePhase true (.op c) := by
        rw [hpart, hdue]
        exact nofun
      rw [step_hostEarly hpart, hostTurn_free hidle hfree, freeTurn_of_not_due hitem hnot, passTurn_early hpart]
  case putOff =>
    have hdue : issuePhase true (.op c) = .hostEarly :=
      issuePhase_of_mustBeEarly true (mustBeEarly_of_init_or_txSend hd hearly)
    have hnot : s.tickPhase ≠ issuePhase true (.op c) := by
      rw [hpart, hdue]
      exact nofun
    rw [step_hostLate hpart, hostTurn_free hidle hfree, freeTurn_of_not_due hitem hnot, passTurn_late hpart]

/-! ### The calls of the host software (R160, R165, R167) -/

/-- A call of the host software that is due is taken. -/
theorem step_call {s : State} {late : Bool} {call : HostCall} {rest : List HostItem}
    (hcall : mustBeEarly call = false) (hpart : s.tickPhase = if late then .hostLate else .hostEarly)
    (hidle : s.txph = .idle) (hfree : s.hostMode = .free) (hitem : s.hostIn = .issue late call :: rest) :
    step s = hostCall call { s with hostIn := rest } :=
  step_issue (hpart.trans (issuePhase_of_not_mustBeEarly late hcall).symm) hidle hfree hitem

/-- Settles O60, by the test for a callback. -/
theorem pollNeedsACallback : Obligations.PollNeedsACallback := by
  intro n late s rest hpart hidle hfree hitem
  rw [step_call rfl hpart hidle hfree hitem, hostCall]
  exact ⟨fun hcallback => if_pos hcallback, fun hnone => if_neg (ne_true_of_eq_false hnone)⟩

theorem hostCall_sendKeys_of_some {cs : List Char} {ws : List Word} (h : digitWords cs = some ws) (s : State) :
    hostCall (.sendKeys cs) s = .next (s.inMode (.sending ws)) := by
  simp only [hostCall, h]

theorem hostCall_sendKeys_of_none {cs : List Char} (h : digitWords cs = none) (s : State) :
    hostCall (.sendKeys cs) s = .refused .nonDigit := by
  simp only [hostCall, h]

theorem hostTurn_sending {s : State} {ws : List Word} (hidle : s.txph = .idle) (hmode : s.hostMode = .sending ws) :
    hostTurn s = sendingTurn ws s := by
  rw [hostTurn, if_pos hidle, hmode]

/-- Settles O58, from the words of a digit sequence. -/
theorem sendKeysTakesDigitsOnly : Obligations.SendKeysTakesDigitsOnly := by
  refine ⟨fun s late call rest hpart hidle hfree hitem => ⟨?key, ?digits, ?nonDigit⟩,
    fun s hpart hidle hmode => ?returns⟩
  case key =>
    rintro k rfl
    rw [step_call rfl hpart hidle hfree hitem]
    rfl
  case digits =>
    rintro ps hps rfl
    rw [step_call rfl hpart hidle hfree hitem, hostCall_sendKeys_of_some (digitWords_of_digitPairs hps)]
    rfl
  case nonDigit =>
    rintro cs rfl hcs
    rw [step_call rfl hpart hidle hfree hitem, hostCall_sendKeys_of_none ((digitWords_eq_none_iff cs).2 hcs)]
  case returns =>
    rw [step_host hpart, hostTurn_sending hidle hmode]
    rfl

/-! ### The steps of `poll` (R160, R161, R163) -/

theorem pacedTurn_pass {body : State → Result} {s : State} (h : nextChoice s % 2 = 1) :
    pacedTurn body s = .next (passTurn (afterChoice s)) := if_pos h

theorem pacedTurn_take {body : State → Result} {s : State} (h : nextChoice s % 2 = 0) :
    pacedTurn body s = body (afterChoice s) := if_neg (by rw [h]; decide)

section
variable {s : State} {a b : Nat} (hidle : s.txph = .idle)
include hidle

theorem hostTurn_pollTest (hmode : s.hostMode = .pollTest a b) : hostTurn s = pacedTurn (pollTestTurn a b) s := by
  rw [hostTurn, if_pos hidle, hmode]

theorem hostTurn_pollCheck (hmode : s.hostMode = .pollCheck a b) : hostTurn s = pacedTurn (pollCheckTurn a b) s := by
  rw [hostTurn, if_pos hidle, hmode]

theorem hostTurn_pollRead (hmode : s.hostMode = .pollRead a b) : hostTurn s = pacedTurn (pollReadTurn a b) s := by
  rw [hostTurn, if_pos hidle, hmode]

theorem hostTurn_pollValid {w : Word} (hmode : s.hostMode = .pollValid a b w) :
    hostTurn s = pacedTurn (pollValidTurn a b w) s := by
  rw [hostTurn, if_pos hidle, hmode]

theorem hostTurn_pollHandle {w : Word} (hmode : s.hostMode = .pollHandle a b w) :
    hostTurn s = pacedTurn (pollHandleTurn a b w) s := by
  rw [hostTurn, if_pos hidle, hmode]

theorem hostTurn_pollYield {n : Nat} (hmode : s.hostMode = .pollYield a b n) :
    hostTurn s = pollYieldTurn a b n s := by
  rw [hostTurn, if_pos hidle, hmode]
end

/-- The answer of Q_EMPTY, where the queue holds a word. -/
theorem exec_qEmpty_of_word {s : State} (hinit : s.initd = true) (h : s.head ≠ s.tail) :
    exec .qEmpty s = .next (s.answer 0) := by
  rw [exec_qEmpty_of hinit, (empty_false_iff s).2 h, boolWord, if_neg Bool.false_ne_true]

/-- The answer of Q_EMPTY, where it holds none. -/
theorem exec_qEmpty_of_none {s : State} (hinit : s.initd = true) (h : s.head = s.tail) :
    exec .qEmpty s = .next (s.answer 1) := by
  rw [exec_qEmpty_of hinit, (empty_iff s).2 h, boolWord, if_pos rfl]

theorem pollTestTurn_within {a b : Nat} {s : State} (h : s.ms - a < b) :
    pollTestTurn a b s = .next (s.inMode (.pollCheck a b)) := if_pos h

theorem pollTestTurn_after {a b : Nat} {s : State} (h : b ≤ s.ms - a) :
    pollTestTurn a b s =
      runCoded (encode .qEmpty) (fun s' => s'.inMode (if s'.result = 0 then .pollCheck a b else .free)) s :=
  if_neg (not_lt.2 h)

@[simp] theorem afterChoice_initd (s : State) : (afterChoice s).initd = s.initd := by rw [afterChoice_eq]

@[simp] theorem afterChoice_head (s : State) : (afterChoice s).head = s.head := by rw [afterChoice_eq]

@[simp] theorem afterChoice_tail (s : State) : (afterChoice s).tail = s.tail := by rw [afterChoice_eq]

@[simp] theorem afterChoice_buf (s : State) : (afterChoice s).buf = s.buf := by rw [afterChoice_eq]

@[simp] theorem afterChoice_ms (s : State) : (afterChoice s).ms = s.ms := by rw [afterChoice_eq]

@[simp] theorem afterChoice_tickPhase (s : State) : (afterChoice s).tickPhase = s.tickPhase := by rw [afterChoice_eq]

@[simp] theorem nextEnv_afterChoice (s : State) : nextEnv (afterChoice s) = nextEnv s := by
  rw [afterChoice_eq]
  rfl

/-- The open choice of a yield does not look at the result port. -/
theorem toYield_answer (a b : Nat) (s : State) (v : Word) :
    toYield a b (s.answer v) = { afterChoice s with hostMode := .pollYield a b (nextChoice s), result := v } := by
  have hafter : afterChoice (s.answer v) = (afterChoice s).answer v := by
    unfold afterChoice
    rw [answer_choiceIn]
    split <;> rfl
  rw [toYield, hafter]
  rfl

section
variable {a b : Nat} {s : State} (hinit : s.initd = true)
include hinit

/-- R160: after the timeout the loop goes on as long as the queue holds a word. -/
theorem pollTestTurn_word (hafter : b ≤ s.ms - a) (hword : s.head ≠ s.tail) :
    pollTestTurn a b s = .next { s with hostMode := .pollCheck a b, result := 0 } := by
  rw [pollTestTurn_after hafter, runCoded_of_ok _ decode_qEmpty (exec_qEmpty_of_word hinit hword)]
  rfl

/-- R160: after the timeout the call ends where the queue is empty. -/
theorem pollTestTurn_none (hafter : b ≤ s.ms - a) (hnone : s.head = s.tail) :
    pollTestTurn a b s = .next { s with hostMode := .free, result := 1 } := by
  rw [pollTestTurn_after hafter, runCoded_of_ok _ decode_qEmpty (exec_qEmpty_of_none hinit hnone)]
  rfl

/-- R161: a word held is read. -/
theorem pollCheckTurn_word (hword : s.head ≠ s.tail) :
    pollCheckTurn a b s = .next { s with hostMode := .pollRead a b, result := 0 } := by
  rw [pollCheckTurn, runCoded_of_ok _ decode_qEmpty (exec_qEmpty_of_word hinit hword)]
  rfl

/-- R161, R163: with no word held the iteration ends with a yield. -/
theorem pollCheckTurn_none (hnone : s.head = s.tail) :
    pollCheckTurn a b s =
      .next { afterChoice s with hostMode := .pollYield a b (nextChoice s), result := 1 } := by
  rw [pollCheckTurn, runCoded_of_ok _ decode_qEmpty (exec_qEmpty_of_none hinit hnone), ← toYield_answer]
  rfl

/-- R161: the read takes the word at HEAD. -/
theorem pollReadTurn_word (hword : s.head ≠ s.tail) {w : Word} (hw : s.buf.read s.head.toNat = some w) :
    pollReadTurn a b s = .next { s with
      hostMode := .pollValid a b w, result := w, head := BitVec.ofNat 6 ((s.head.toNat + 1) % 64) } := by
  rw [pollReadTurn, runCoded_of_ok _ decode_qRead (exec_qRead_of hinit),
    readWord_of_not_empty ((empty_false_iff s).2 hword), readSlot_of_read hw, nextSlot_eq_ofNat]
  rfl

/-- R161: a valid word is handed to the lookup. -/
theorem pollValidTurn_valid {w : Word} (hvalid : validWord w = true) :
    pollValidTurn a b w s = .next { s with hostMode := .pollHandle a b w, result := 1 } := by
  rw [pollValidTurn, runCoded_of_ok _ (decode_pktValid w) (exec_pktValid_of w hinit), hvalid, boolWord, if_pos rfl]
  rfl

/-- R161, R163: an invalid word is dropped, and the iteration ends with a yield. -/
theorem pollValidTurn_invalid {w : Word} (hinvalid : validWord w = false) :
    pollValidTurn a b w s =
      .next { afterChoice s with hostMode := .pollYield a b (nextChoice s), result := 0 } := by
  rw [pollValidTurn, runCoded_of_ok _ (decode_pktValid w) (exec_pktValid_of w hinit), hinvalid, boolWord,
    if_neg Bool.false_ne_true, ← toYield_answer]
  rfl
end

/-- A step of `poll` that is taken. -/
theorem step_paced_take {body : State → Result} {s : State} (hpart : s.tickPhase = .hostEarly ∨ s.tickPhase = .hostLate)
    (hturn : hostTurn s = pacedTurn body s) (hchoice : nextChoice s % 2 = 0) : step s = body (afterChoice s) := by
  rw [step_host hpart, hturn, pacedTurn_take hchoice]

/-- R184: where the open choice lets `poll` pass, the tick goes on. -/
theorem step_paced_pass {body : State → Result} {s : State} (hturn : hostTurn s = pacedTurn body s)
    (hchoice : nextChoice s % 2 = 1) :
    (s.tickPhase = .hostEarly → step s = .next { afterChoice s with tickPhase := .edge }) ∧
    (s.tickPhase = .hostLate → step s = .next (ticked (afterChoice s) (nextEnv s))) := by
  refine ⟨fun hpart => ?_, fun hpart => ?_⟩
  · rw [step_hostEarly hpart, hturn, pacedTurn_pass hchoice, passTurn_early (by rwa [afterChoice_tickPhase])]
  · rw [step_hostLate hpart, hturn, pacedTurn_pass hchoice, passTurn_late (by rwa [afterChoice_tickPhase]),
      nextEnv_afterChoice]

/-- Settles O59, from the steps of `poll` on the state after the open choice. -/
theorem pollLoopsUntilTimedOutAndDrained : Obligations.PollLoopsUntilTimedOutAndDrained := by
  refine ⟨fun s a b hpart hidle hinit hchoice => ⟨fun hmode => ?test, fun hmode => ?check, fun hmode => ?read,
    fun w hmode => ?valid⟩, fun s a b w hidle hchoice hmode => ?pass, fun s a b n hidle hmode hpart => ?yield⟩
  case test =>
    rw [step_paced_take hpart (hostTurn_pollTest hidle hmode) hchoice]
    have hinit' : (afterChoice s).initd = true := (afterChoice_initd s).trans hinit
    rw [← afterChoice_ms s, ← afterChoice_head s, ← afterChoice_tail s]
    exact ⟨pollTestTurn_within, pollTestTurn_word hinit', pollTestTurn_none hinit'⟩
  case check =>
    rw [step_paced_take hpart (hostTurn_pollCheck hidle hmode) hchoice]
    have hinit' : (afterChoice s).initd = true := (afterChoice_initd s).trans hinit
    rw [← afterChoice_head s, ← afterChoice_tail s]
    exact ⟨pollCheckTurn_word hinit', pollCheckTurn_none hinit'⟩
  case read =>
    rw [step_paced_take hpart (hostTurn_pollRead hidle hmode) hchoice]
    have hinit' : (afterChoice s).initd = true := (afterChoice_initd s).trans hinit
    rw [← afterChoice_head s, ← afterChoice_tail s, ← afterChoice_buf s]
    exact fun hword w => pollReadTurn_word hinit' hword
  case valid =>
    rw [step_paced_take hpart (hostTurn_pollValid hidle hmode) hchoice, ← validWord_iff, ← validWord_false_iff]
    have hinit' : (afterChoice s).initd = true := (afterChoice_initd s).trans hinit
    exact ⟨pollValidTurn_valid hinit', pollValidTurn_invalid hinit'⟩
  case pass =>
    rcases hmode with hmode | hmode | hmode | hmode | hmode
    · exact step_paced_pass (hostTurn_pollTest hidle hmode) hchoice
    · exact step_paced_pass (hostTurn_pollCheck hidle hmode) hchoice
    · exact step_paced_pass (hostTurn_pollRead hidle hmode) hchoice
    · exact step_paced_pass (hostTurn_pollValid hidle hmode) hchoice
    · exact step_paced_pass (hostTurn_pollHandle hidle hmode) hchoice
  case yield =>
    rw [step_host hpart, hostTurn_pollYield hidle hmode]
    cases n with
    | zero => exact ⟨fun _ => rfl, fun h => absurd h (Nat.lt_irrefl 0), fun h => absurd h (Nat.lt_irrefl 0)⟩
    | succ n =>
      refine ⟨nofun, fun _ hearly => ?_, fun _ hlate => ?_⟩
      · rw [pollYieldTurn, if_pos hearly, passTurn_early hearly]
      · have hnot : s.tickPhase ≠ .hostEarly := hlate.trans_ne nofun
        rw [pollYieldTurn, if_neg hnot]
        exact congrArg _ (passTurn_late (s := s.inMode (.pollYield a b n)) hlate)

/-! ### Symbols, frames and words (R122, R125, R161, R165) -/

/-- R125: the symbol of a chip is executed at the drive. -/
theorem exec_symbolAt {w : Word} {c : Nat} {i : Instr} (hd : decode (symbolAt w c) = .ok i) (s : State) :
    ∃ t, exec i s = .next t := by
  obtain ⟨j, hj, hsymbol⟩ := decode_symbolAt w c
  obtain rfl : i = j := Except.ok.inj (hd.symm.trans hj)
  rcases hsymbol with rfl | rfl | rfl | rfl
  all_goals exact ⟨_, rfl⟩

/-- Settles O43, agent by agent, from what the bits that it holds decode to. -/
theorem stepRunsTheOtherFormats : Obligations.StepRunsTheOtherFormats := by
  refine ⟨fun s i hpart hemit hd => ?symbol, fun s i hpart hwait hfree hd => ?frame,
    fun s i a b w hpart hidle hmode hchoice hd => ?word, fun s i w ws hpart hidle hmode hinit hd => ?keyWord⟩
  case symbol =>
    obtain ⟨t, ht⟩ := exec_symbolAt hd s
    refine ⟨t, ht, ?_⟩
    rw [step_drive hpart, driveTurn, if_pos hemit, runCoded_of_ok _ hd ht]
    rfl
  case frame =>
    obtain rfl : i = .txFrame s.txw := Except.ok.inj (hd.symm.trans (decodeFrame_frameBits s.txw))
    refine ⟨beginEmission (sampleLine s), rfl, ?_⟩
    rw [step_ctsWait hpart hwait, if_pos hfree]
    rfl
  case word =>
    obtain ⟨v, hv⟩ := exec_word hd (afterChoice s)
    refine ⟨_, hv, ?_⟩
    rw [step_paced_take hpart (hostTurn_pollHandle hidle hmode) hchoice, pollHandleTurn, runCoded_of_ok _ hd hv]
    rfl
  case keyWord =>
    have hsend := exec_of_sentWord (s := s.inMode (.sending ws)) (sentWord_of_keyWord hd) hinit
    refine ⟨_, hsend, rfl, rfl, ?_⟩
    rw [step_hostEarly hpart, hostTurn_sending hidle hmode, sendingTurn, if_pos hpart, runCoded_of_ok _ hd hsend,
      settle_beginSend]
    rfl

end Sys2Proof.Machine
end
